-- ==== Sys2Proof/Word.lean ====
section
/-! DEFINITION. The two word types of the block: the u8 and the u16 of spec/00_scope.md rule R11. -/

namespace Sys2Proof

/-- A u8: one byte of memory, one general register, one immediate (00_scope R9, R11). -/
abbrev Byte := BitVec 8

/-- A u16: AR, IC and every address (00_scope R9, R11). -/
abbrev Word := BitVec 16

end Sys2Proof
end

