-- ==== Sys2Proof/Config.lean ====
section
/-! DEFINITION. What is fixed for the machine: the fixed parameters of 00_scope R9, the device addresses of
20_memory R42, and the open parameters of 00_scope R10, which the model takes as arguments and never fixes.
No instruction reads an open parameter (R10), and no instruction has an undefined result, so there is no free value here. -/

namespace Sys2Proof.Config

/-- The reset IC and the first byte of RAM (00_scope R9, 70_reset R156). -/
def resetIc : Word := 0x0100

/-- DRAW, the redraw flag (20_memory R43). -/
def drawAddr : Word := 0x000A

/-- WD_INC, the watchdog byte each Cycle increments (20_memory R44). -/
def wdIncAddr : Word := 0x0010

/-- WD_DEC, the watchdog byte each Cycle decrements (20_memory R44). -/
def wdDecAddr : Word := 0x0011

/-- KEY, the keyboard byte (20_memory R45). -/
def keyAddr : Word := 0x0020

/-- The size of RAM, the longest program image (20_memory R37, 70_reset R157). -/
def ramSize : Nat := 0xDF00

/-- A glyph as the spec models it: a finite list of (brightness index, byte) writes, applied in list order (20_memory R53, D11). -/
abbrev Glyph := List (Fin 4096 × Byte)

/-- How the host clears the keyboard byte (D13): the two policies the spec names. -/
inductive KeyClearPolicy where
  | onRelease
  | afterOneRead
  deriving DecidableEq, Repr

/-- The open parameters of 00_scope R10 except PALETTE, which `Machine.display` takes as an argument of its own.
The model never gives one of them a value: whatever depends on them takes a `Params`. -/
structure Params where
  /-- BOOT_GLYPH (D11): what power-on and HardReset write into the brightness plane. -/
  bootGlyph : Glyph
  /-- GLYPH_VALUE (D11): the byte of a lit pixel where a glyph is built from a bitmap. -/
  glyphValue : Byte
  /-- REDRAW_INTERVAL (D14): how many Cycles the driver runs between redraw checks; at least 1. -/
  redrawInterval : Nat
  /-- KEY_CLEAR_POLICY (D13). -/
  keyClearPolicy : KeyClearPolicy
  deriving DecidableEq, Repr

/-- The one bound the spec puts on an open parameter: REDRAW_INTERVAL ≥ 1 (40_cycle R88, D14). -/
def Params.wf (p : Params) : Bool := decide (1 ≤ p.redrawInterval)

end Sys2Proof.Config
end

