-- ==== Sys2Proof/Machine/State.lean ====
section
/-! DEFINITION. The architectural state, exactly the tuple of 10_state R20, as plain data, and the ways a transaction can stop. -/

namespace Sys2Proof.Machine

/-- FLT, the fault latch (10_state R30). -/
structure FaultLatch where
  /-- FLT.faulted: an UnknownOpcode was raised since the last reset. -/
  faulted : Bool
  /-- FLT.op: the unmapped opcode of the most recent fault. -/
  op : Byte
  /-- FLT.ic: the IC it was fetched at. -/
  ic : Word
  deriving DecidableEq, Repr

/-- The 64 KiB of memory (20_memory R36) as (address, byte) pairs in one canonical form (`Memory.wf` in Ops.lean). -/
abbrev Memory := List Host.Cell

/-- The architectural state (10_state R20): "There is no other state". -/
structure State where
  /-- AR, the address register (R24). -/
  ar : Word
  /-- IC, the instruction counter (R25). -/
  ic : Word
  /-- R0 (R22). -/
  r0 : Byte
  /-- R1, the low byte of the word pair W (R22). -/
  r1 : Byte
  /-- R2, the high byte of the word pair W (R22). -/
  r2 : Byte
  /-- R3 (R22). -/
  r3 : Byte
  /-- HLT, the halt latch (R28). -/
  hlt : Bool
  /-- CUROP, the last fetched opcode byte (R29). -/
  curop : Byte
  /-- FLT, the fault latch (R30). -/
  flt : FaultLatch
  /-- mem (20_memory R36). -/
  mem : Memory
  deriving DecidableEq, Repr

/-- The errors that can end a Cycle (60_exceptions R136). An UnknownOpcode has a next state (R138) and the engine can be
run on from it (40_cycle R85), so `step` answers that next state; this is the RESULT the host is given beside it. -/
inductive Fault where
  /-- Raised by a Cycle that fetches an unmapped opcode (60_exceptions R138), reported by `cycleResult`; `step` itself
  never stops with it. Safe: every state the spec gives after the fault is kept, and FLT records it. -/
  | unknownOpcode (op : Byte) (ic : Word)
  deriving DecidableEq, Repr

/-- The requests the model turns away. -/
inductive Refusal where
  /-- Raised by an arm of `exec` that has no meaning; no arm is one. Safe: it stops the run. -/
  | notModelled (mnemonic : String)
  /-- Raised by the Pixel transaction for an index outside 0..4095, which the spec says a model refuses
  (48_rasterizer R131). Safe: nothing is answered where the spec defines nothing. -/
  | pixelIndexOutOfRange (i : Nat)
  deriving DecidableEq, Repr

/-- The power-on state (10_state R35, 70_reset R152): AR 0x0000, IC 0x0100, R0..R3 0x00, HLT 0, FLT.faulted 0, memory at its default fill.
CUROP, FLT.op and FLT.ic have no reset value in the spec: 0 is this model's (DESIGN CHOICE, unsafe, log entries 1 and 2).
BOOT_GLYPH is taken as empty (DESIGN CHOICE, unsafe, log entry 3); `State.powerOn` takes all four as arguments. -/
def State.reset : State where
  ar := 0x0000
  ic := Config.resetIc
  r0 := 0x00
  r1 := 0x00
  r2 := 0x00
  r3 := 0x00
  hlt := false
  curop := 0x00
  flt := ⟨false, 0x00, 0x0000⟩
  mem := []

end Sys2Proof.Machine
end

