-- ==== Sys2Proof/Machine/Ops.lean ====
section
/-! DEFINITION. The named operations over bytes, memory and registers, and the one exception, UnknownOpcode.
There is no trap entry and no return from one (60_exceptions R143, R144): the ways out of a faulted state are the resets of Resets.lean. -/

namespace Sys2Proof.Machine

/-! ### Bytes of a u16 (00_scope R11) -/

/-- `v[7:0]`. -/
def lowByte (w : Word) : Byte := w.extractLsb' 0 8

/-- `v[15:8]`. -/
def highByte (w : Word) : Byte := w.extractLsb' 8 8

/-- `hi:lo`, the u16 `hi*0x100 + lo`. -/
def pairWord (hi lo : Byte) : Word := hi ++ lo

/-! ### Memory (20_memory) -/

/-- The regions of 20_memory R37. -/
inductive Region where
  | io
  | ram
  | brightness
  | color
  deriving DecidableEq, Repr

/-- Routing (20_memory R38). -/
def regionOf (a : Word) : Region :=
  if a.toNat ≤ 0x00FF then .io
  else if a.toNat ≤ 0xDFFF then .ram
  else if a.toNat ≤ 0xEFFF then .brightness
  else .color

/-- The index of an address in its region (20_memory R37). -/
def regionIndex (a : Word) : Nat :=
  match regionOf a with
  | .io => a.toNat
  | .ram => a.toNat - 0x0100
  | .brightness => a.toNat - 0xE000
  | .color => a.toNat - 0xF000

/-- What an address that the memory does not list reads as: the default fill of its region (20_memory R37, R56). -/
def memFill (k : Nat) : Byte := if 0x0100 ≤ k ∧ k ≤ 0xDFFF then 0xFF else 0x00

/-- The byte at an address of the list form. -/
def memLookup : Memory → Nat → Byte
  | [], k => memFill k
  | c :: m, k => if c.1 = k then c.2 else memLookup m k

/-- `MemRead(a, 1)` (00_scope R14, 20_memory R38). -/
def memRead (m : Memory) (a : Word) : Byte := memLookup m a.toNat

/-- The list without the entries of one address. -/
def memErase (m : Memory) (k : Nat) : Memory := m.filter fun c => c.1 != k

/-- An entry put where the rising order wants it. -/
def memInsert (k : Nat) (v : Byte) : Memory → Memory
  | [] => [(k, v)]
  | c :: m => if k < c.1 then (k, v) :: c :: m else c :: memInsert k v m

/-- `MemWrite(a, 1, v)` (00_scope R14, 20_memory R38), in canonical form: a byte equal to its fill is not listed. -/
def memWrite (m : Memory) (a : Word) (v : Byte) : Memory :=
  if v = memFill a.toNat then memErase m a.toNat else memInsert a.toNat v (memErase m a.toNat)

/-- Every byte from `lo` to `hi` back at its fill (the clears of 20_memory R52 write exactly the fill of R37). -/
def memClear (m : Memory) (lo hi : Nat) : Memory := m.filter fun c => !(decide (lo ≤ c.1) && decide (c.1 ≤ hi))

/-- The bytes of a list stored at rising addresses (70_reset R157). -/
def memWriteBytes (m : Memory) (a : Word) : List Byte → Memory
  | [] => m
  | b :: bs => memWriteBytes (memWrite m a b) (a + 1) bs

/-- The canonical form from an address up: strictly rising addresses of the 16-bit space, no entry equal to its fill. -/
def memWfFrom : Nat → Memory → Bool
  | _, [] => true
  | lo, c :: m => decide (lo ≤ c.1) && decide (c.1 < 0x10000) && !(c.2 == memFill c.1) && memWfFrom (c.1 + 1) m

/-- The canonical form: equal memories are equal lists. -/
def Memory.wf (m : Memory) : Bool := memWfFrom 0 m

/-! ### Registers (10_state) -/

/-- `AR <- v` (R24). -/
def State.setAr (s : State) (v : Word) : State := { s with ar := v }

/-- `IC <- v` (R25). -/
def State.setIc (s : State) (v : Word) : State := { s with ic := v }

/-- `R0 <- v` (R22). -/
def State.setR0 (s : State) (v : Byte) : State := { s with r0 := v }

/-- `R1 <- v` (R22). -/
def State.setR1 (s : State) (v : Byte) : State := { s with r1 := v }

/-- `R2 <- v` (R22). -/
def State.setR2 (s : State) (v : Byte) : State := { s with r2 := v }

/-- `R3 <- v` (R22). -/
def State.setR3 (s : State) (v : Byte) : State := { s with r3 := v }

/-- `HLT <- v` (R28). -/
def State.setHlt (s : State) (v : Bool) : State := { s with hlt := v }

/-- `CUROP <- v` (R29). -/
def State.setCurop (s : State) (v : Byte) : State := { s with curop := v }

/-- `FLT <- v` (R30). -/
def State.setFlt (s : State) (v : FaultLatch) : State := { s with flt := v }

/-- The memory replaced whole. -/
def State.setMem (s : State) (v : Memory) : State := { s with mem := v }

/-- `mem[a]` on the right of `<-` (00_scope R14). -/
def State.load (s : State) (a : Word) : Byte := memRead s.mem a

/-- `mem[a] <- v` (00_scope R14). -/
def State.store (s : State) (a : Word) (v : Byte) : State := s.setMem (memWrite s.mem a v)

/-- `IC <- (IC + len) mod 0x10000` (10_state R26). -/
def State.advance (s : State) (len : Word) : State := s.setIc (s.ic + len)

/-! ### The exception -/

/-- Taking UnknownOpcode (40_cycle R78 step 5, 60_exceptions R138): FLT records the opcode and the IC it was fetched at.
AR, IC, R0..R3 and HLT keep their values; CUROP and the watchdog bytes were written before (steps 2 to 4). -/
def takeUnknownOpcode (s : State) (op : Byte) : State := s.setFlt ⟨true, op, s.ic⟩

end Sys2Proof.Machine
end

