-- ==== Sys2Proof/Machine/Operands.lean ====
section
/-! DEFINITION. The operand forms: the effective address of loads and stores, byte pairs in memory, the word pair W, and the 16-bit immediate. -/

namespace Sys2Proof.Machine

/-- The effective address of every load and store: AR itself (44_load_store R116). -/
def effectiveAddress (s : State) : Word := s.ar

/-- The address of the second byte of a pair, wrapping at 0xFFFF (20_memory R48). -/
def nextAddress (a : Word) : Word := a + 1

/-- The address of the k-th byte of the instruction at IC, wrapping at 0xFFFF (20_memory R48, 30_encoding R64). -/
def operandAddress (s : State) (k : Word) : Word := s.ic + k

/-- The jump target of every jump: AR (45_control R121). -/
def jumpTarget (s : State) : Word := s.ar

/-- W = R2:R1, R1 the low byte (10_state R22). -/
def State.wordPair (s : State) : Word := pairWord s.r2 s.r1

/-- R1 and R2 written as a pair of bytes (low, high). -/
def State.setPair (s : State) (lo hi : Byte) : State := (s.setR1 lo).setR2 hi

/-- The 16-bit immediate of MAR, little-endian: b2:b1 (30_encoding R68). -/
def immediateWord (b1 b2 : Byte) : Word := pairWord b2 b1

/-- A pair stored low byte first, at `a` and `(a + 1) mod 0x10000` (20_memory R46, R48). -/
def State.storePair (s : State) (a : Word) (lo hi : Byte) : State := (s.store a lo).store (nextAddress a) hi

end Sys2Proof.Machine
end

