-- ==== Sys2Proof/Machine/Flags.lean ====
section
/-! DEFINITION. The block has no flags (10_state R31): a carry or borrow is applied at once to R2 or saturated away, and a
conditional jump tests register values. This file holds those computations: carries, borrows, saturations, shifts and jump tests.
Each computes with exact integers and narrows at the end, as 00_scope R12 writes them. -/

namespace Sys2Proof.Machine

/-- `min(v + 1, 0xFF)` (42_alu R97). -/
def saturatingInc (v : Byte) : Byte := BitVec.ofNat 8 (min (v.toNat + 1) 0xFF)

/-- `max(v - 1, 0x00)` (42_alu R99): Nat subtraction stops at 0. -/
def saturatingDec (v : Byte) : Byte := BitVec.ofNat 8 (v.toNat - 1)

/-- The carry rule of A01 (42_alu R98) on (R1, R2): the sum's carry goes into R2, and an overflow of R2 makes both 0xFF. -/
def pairAdd (n r1 r2 : Byte) : Byte × Byte :=
  let x := r1.toNat + n.toNat
  if x > 0xFF then
    if r2 = 0xFF then (0xFF, 0xFF) else (BitVec.ofNat 8 (x - 0x100), r2 + 1)
  else (BitVec.ofNat 8 x, r2)

/-- The borrow rule of S01 and DRW (42_alu R100, R104) on (R1, R2): on a borrow R1 becomes the ABSOLUTE difference and
R2 goes down by one; an underflow of R2 makes both 0x00. -/
def pairSub (n r1 r2 : Byte) : Byte × Byte :=
  let x : Int := (r1.toNat : Int) - (n.toNat : Int)
  if x < 0 then
    if r2 = 0x00 then (0x00, 0x00) else (BitVec.ofNat 8 x.natAbs, r2 - 1)
  else (BitVec.ofNat 8 x.toNat, r2)

/-- The carry rule of IRW (42_alu R103) on (R1, R2): R1 stays 0xFF when it overflows, and R2 saturates. -/
def pairInc (r1 r2 : Byte) : Byte × Byte :=
  let x := r1.toNat + 1
  if x > 0xFF then (0xFF, saturatingInc r2) else (BitVec.ofNat 8 x, r2)

/-- `(v << 1) mod 0x100` (42_alu R105, 90_conflicts C1 and C2). -/
def shiftLeft (v : Byte) : Byte := BitVec.ofNat 8 (v.toNat * 2 % 0x100)

/-- `v >> 1`, logical (42_alu R106). -/
def shiftRight (v : Byte) : Byte := BitVec.ofNat 8 (v.toNat / 2)

/-- `(AR + R0) mod 0x10000`, the carry discarded (41_address R94). -/
def addOffset (ar : Word) (r0 : Byte) : Word := BitVec.ofNat 16 ((ar.toNat + r0.toNat) % 0x10000)

/-- The test of JZ0 (45_control R123). -/
def testZero (r0 : Byte) : Bool := r0 == 0x00

/-- The test of JGW, unsigned (45_control R124). -/
def testGreater (r1 r2 : Byte) : Bool := decide (r1.toNat > r2.toNat)

/-- The test of JEW and JE0 (45_control R125, R126). -/
def testEqual (a b : Byte) : Bool := a == b

/-- A conditional jump: to AR when taken, else past its own `len` bytes (10_state R26, 45_control R121). -/
def State.branch (s : State) (taken : Bool) (len : Word) : State :=
  if taken then s.setIc (jumpTarget s) else s.advance len

end Sys2Proof.Machine
end

