-- ==== Sys2Proof/Machine/Address.lean ====
section
/-! DEFINITION. No-op and address-register instructions (spec/41_address.md). Each meaning is step 6 of 40_cycle R78: it runs after the fetch and the watchdog update,
on operands as the decoder read them, and it is the only thing that advances IC (10_state R25). -/

namespace Sys2Proof.Machine

/-- NUL: no operation (41_address R90). -/
def execNul (s : State) : Host.Outcome State Fault Refusal :=
  .next (s.advance 1)

/-- MAR: load AR with a 16-bit immediate (41_address R91). -/
def execMar (b1 : Byte) (b2 : Byte) (s : State) : Host.Outcome State Fault Refusal :=
  .next ((s.setAr (immediateWord b1 b2)).advance 3)

/-- SIC: store IC, the address of this opcode, at AR (41_address R92, 10_state R27). -/
def execSic (s : State) : Host.Outcome State Fault Refusal :=
  .next ((s.storePair (effectiveAddress s) (lowByte s.ic) (highByte s.ic)).advance 1)

/-- RAR: load AR from the word pair (41_address R93). -/
def execRar (s : State) : Host.Outcome State Fault Refusal :=
  .next ((s.setAr s.wordPair).advance 1)

/-- AAR: add R0 to AR (41_address R94). -/
def execAar (s : State) : Host.Outcome State Fault Refusal :=
  .next ((s.setAr (addOffset s.ar s.r0)).advance 1)

/-- TAW: copy AR into the word pair (41_address R95). -/
def execTaw (s : State) : Host.Outcome State Fault Refusal :=
  .next ((s.setPair (lowByte s.ar) (highByte s.ar)).advance 1)

end Sys2Proof.Machine
end

