-- ==== Sys2Proof/Machine/Alu.lean ====
section
/-! DEFINITION. Arithmetic and logic instructions (spec/42_alu.md). Each meaning is step 6 of 40_cycle R78: it runs after the fetch and the watchdog update,
on operands as the decoder read them, and it is the only thing that advances IC (10_state R25). -/

namespace Sys2Proof.Machine

/-- IR0: increment R0, saturating (42_alu R97). -/
def execIr0 (s : State) : Host.Outcome State Fault Refusal :=
  .next ((s.setR0 (saturatingInc s.r0)).advance 1)

/-- A01: add R0 into the word pair, with carry into R2 and saturation (42_alu R98). -/
def execA01 (s : State) : Host.Outcome State Fault Refusal :=
  .next ((s.setPair (pairAdd s.r0 s.r1 s.r2).1 (pairAdd s.r0 s.r1 s.r2).2).advance 1)

/-- DR0: decrement R0, saturating (42_alu R99). -/
def execDr0 (s : State) : Host.Outcome State Fault Refusal :=
  .next ((s.setR0 (saturatingDec s.r0)).advance 1)

/-- S01: subtract R0 from R1, with the absolute difference and a borrow from R2 (42_alu R100). -/
def execS01 (s : State) : Host.Outcome State Fault Refusal :=
  .next ((s.setPair (pairSub s.r0 s.r1 s.r2).1 (pairSub s.r0 s.r1 s.r2).2).advance 1)

/-- OR0: OR an immediate into R0 (42_alu R101). -/
def execOr0 (b1 : Byte) (s : State) : Host.Outcome State Fault Refusal :=
  .next ((s.setR0 (s.r0 ||| b1)).advance 2)

/-- AN0: AND an immediate into R0 (42_alu R102). -/
def execAn0 (b1 : Byte) (s : State) : Host.Outcome State Fault Refusal :=
  .next ((s.setR0 (s.r0 &&& b1)).advance 2)

/-- IRW: increment R1, saturating R1 and carrying into R2 (42_alu R103). -/
def execIrw (s : State) : Host.Outcome State Fault Refusal :=
  .next ((s.setPair (pairInc s.r1 s.r2).1 (pairInc s.r1 s.r2).2).advance 1)

/-- DRW: decrement R1 by the borrow rule of S01 with 1 (42_alu R104). -/
def execDrw (s : State) : Host.Outcome State Fault Refusal :=
  .next ((s.setPair (pairSub 1 s.r1 s.r2).1 (pairSub 1 s.r1 s.r2).2).advance 1)

/-- PL0: shift R0 left by one, truncated (42_alu R105). -/
def execPl0 (s : State) : Host.Outcome State Fault Refusal :=
  .next ((s.setR0 (shiftLeft s.r0)).advance 1)

/-- PR0: shift R0 right by one, logical (42_alu R106). -/
def execPr0 (s : State) : Host.Outcome State Fault Refusal :=
  .next ((s.setR0 (shiftRight s.r0)).advance 1)

end Sys2Proof.Machine
end

