-- ==== Sys2Proof/Machine/Control.lean ====
section
/-! DEFINITION. Control transfer and halt (spec/45_control.md). Each meaning is step 6 of 40_cycle R78: it runs after the fetch and the watchdog update,
on operands as the decoder read them, and it is the only thing that advances IC (10_state R25). -/

namespace Sys2Proof.Machine

/-- JMP: jump to AR (45_control R122). -/
def execJmp (s : State) : Host.Outcome State Fault Refusal :=
  .next (s.setIc (jumpTarget s))

/-- JZ0: jump to AR if R0 is zero (45_control R123). -/
def execJz0 (s : State) : Host.Outcome State Fault Refusal :=
  .next (s.branch (testZero s.r0) 1)

/-- JGW: jump to AR if R1 is greater than R2, unsigned (45_control R124). -/
def execJgw (s : State) : Host.Outcome State Fault Refusal :=
  .next (s.branch (testGreater s.r1 s.r2) 1)

/-- JEW: jump to AR if R1 equals R2 (45_control R125). -/
def execJew (s : State) : Host.Outcome State Fault Refusal :=
  .next (s.branch (testEqual s.r1 s.r2) 1)

/-- JE0: jump to AR if R0 equals an immediate (45_control R126). -/
def execJe0 (b1 : Byte) (s : State) : Host.Outcome State Fault Refusal :=
  .next (s.branch (testEqual s.r0 b1) 2)

/-- HLT: set the halt latch; IC still advances (45_control R127). -/
def execHlt (s : State) : Host.Outcome State Fault Refusal :=
  .next ((s.setHlt true).advance 1)

end Sys2Proof.Machine
end

