-- ==== Sys2Proof/Machine/LoadStore.lean ====
section
/-! DEFINITION. Load and store instructions (spec/44_load_store.md). Each meaning is step 6 of 40_cycle R78: it runs after the fetch and the watchdog update,
on operands as the decoder read them, and it is the only thing that advances IC (10_state R25). -/

namespace Sys2Proof.Machine

/-- SR0: store R0 at AR (44_load_store R117). -/
def execSr0 (s : State) : Host.Outcome State Fault Refusal :=
  .next ((s.store (effectiveAddress s) s.r0).advance 1)

/-- SRW: store the word pair at AR, R1 low and R2 high (44_load_store R118). -/
def execSrw (s : State) : Host.Outcome State Fault Refusal :=
  .next ((s.storePair (effectiveAddress s) s.r1 s.r2).advance 1)

/-- LR0: load R0 from AR (44_load_store R119). -/
def execLr0 (s : State) : Host.Outcome State Fault Refusal :=
  .next ((s.setR0 (s.load (effectiveAddress s))).advance 1)

/-- LRW: load the word pair from AR (44_load_store R120). -/
def execLrw (s : State) : Host.Outcome State Fault Refusal :=
  .next ((s.setPair (s.load (effectiveAddress s)) (s.load (nextAddress (effectiveAddress s)))).advance 1)

end Sys2Proof.Machine
end

