-- ==== Sys2Proof/Machine/Move.lean ====
section
/-! DEFINITION. Register move, swap and immediate-load instructions (spec/43_move.md). Each meaning is step 6 of 40_cycle R78: it runs after the fetch and the watchdog update,
on operands as the decoder read them, and it is the only thing that advances IC (10_state R25). -/

namespace Sys2Proof.Machine

/-- X12: swap R1 and R2 (43_move R107). -/
def execX12 (s : State) : Host.Outcome State Fault Refusal :=
  .next (((s.setR1 s.r2).setR2 s.r1).advance 1)

/-- X01: swap R0 and R1 (43_move R108). -/
def execX01 (s : State) : Host.Outcome State Fault Refusal :=
  .next (((s.setR0 s.r1).setR1 s.r0).advance 1)

/-- MR0: load R0 with an immediate (43_move R109). -/
def execMr0 (b1 : Byte) (s : State) : Host.Outcome State Fault Refusal :=
  .next ((s.setR0 b1).advance 2)

/-- MRW: load the word pair with two immediates, b1 into R1 and b2 into R2 (43_move R110). -/
def execMrw (b1 : Byte) (b2 : Byte) (s : State) : Host.Outcome State Fault Refusal :=
  .next ((s.setPair b1 b2).advance 3)

/-- C01: copy R0 to R1 (43_move R111). -/
def execC01 (s : State) : Host.Outcome State Fault Refusal :=
  .next ((s.setR1 s.r0).advance 1)

/-- C02: copy R0 to R2 (43_move R112). -/
def execC02 (s : State) : Host.Outcome State Fault Refusal :=
  .next ((s.setR2 s.r0).advance 1)

/-- X03: swap R0 and R3 (43_move R113). -/
def execX03 (s : State) : Host.Outcome State Fault Refusal :=
  .next (((s.setR0 s.r3).setR3 s.r0).advance 1)

/-- C03: copy R0 to R3 (43_move R114). -/
def execC03 (s : State) : Host.Outcome State Fault Refusal :=
  .next ((s.setR3 s.r0).advance 1)

/-- C30: copy R3 to R0 (43_move R115). -/
def execC30 (s : State) : Host.Outcome State Fault Refusal :=
  .next ((s.setR0 s.r3).advance 1)

end Sys2Proof.Machine
end

