-- ==== Sys2Proof/Syntax.lean ====
section
/-! DEFINITION. The instructions: one constructor per row of spec/opcode_table.json, in the table's order.
An operand byte is a u8 by its type; b1 is the byte at IC+1 and b2 the byte at IC+2 (30_encoding R64, R67). -/

namespace Sys2Proof

/-- The 35 instructions of 30_encoding R72. Mnemonics as 00_scope R18 spells them. -/
inductive Instr where
  | nul
  | mar (b1 b2 : Byte)
  | sic
  | rar
  | aar
  | ir0
  | a01
  | dr0
  | s01
  | x12
  | x01
  | jmp
  | sr0
  | srw
  | lr0
  | lrw
  | taw
  | mr0 (b1 : Byte)
  | mrw (b1 b2 : Byte)
  | jz0
  | jgw
  | jew
  | or0 (b1 : Byte)
  | an0 (b1 : Byte)
  | je0 (b1 : Byte)
  | c01
  | c02
  | irw
  | drw
  | x03
  | c03
  | c30
  | pl0
  | pr0
  | hlt
  deriving DecidableEq, Repr

/-- The immediate operand bytes of an instruction, in address order (30_encoding R67); every other operand is implicit (R69). -/
def Instr.immediates : Instr → List Byte
  | .mar b1 b2 => [b1, b2]
  | .mr0 b1 => [b1]
  | .mrw b1 b2 => [b1, b2]
  | .or0 b1 => [b1]
  | .an0 b1 => [b1]
  | .je0 b1 => [b1]
  | .nul | .sic | .rar | .aar | .ir0 | .a01 | .dr0 | .s01 | .x12 | .x01 | .jmp | .sr0 | .srw | .lr0 | .lrw | .taw
  | .jz0 | .jgw | .jew | .c01 | .c02 | .irw | .drw | .x03 | .c03 | .c30 | .pl0 | .pr0 | .hlt => []

end Sys2Proof
end

