-- ==== Sys2Proof/Machine/Dispatch.lean ====
section
/-! DEFINITION. One arm per constructor of Instr, each one direct call of its meaning. -/

namespace Sys2Proof.Machine

def exec (i : Instr) (s : State) : Host.Outcome State Fault Refusal :=
  match i with
  | .nul => Sys2Proof.Machine.execNul s
  | .mar b1 b2 => Sys2Proof.Machine.execMar b1 b2 s
  | .sic => Sys2Proof.Machine.execSic s
  | .rar => Sys2Proof.Machine.execRar s
  | .aar => Sys2Proof.Machine.execAar s
  | .ir0 => Sys2Proof.Machine.execIr0 s
  | .a01 => Sys2Proof.Machine.execA01 s
  | .dr0 => Sys2Proof.Machine.execDr0 s
  | .s01 => Sys2Proof.Machine.execS01 s
  | .x12 => Sys2Proof.Machine.execX12 s
  | .x01 => Sys2Proof.Machine.execX01 s
  | .jmp => Sys2Proof.Machine.execJmp s
  | .sr0 => Sys2Proof.Machine.execSr0 s
  | .srw => Sys2Proof.Machine.execSrw s
  | .lr0 => Sys2Proof.Machine.execLr0 s
  | .lrw => Sys2Proof.Machine.execLrw s
  | .taw => Sys2Proof.Machine.execTaw s
  | .mr0 b1 => Sys2Proof.Machine.execMr0 b1 s
  | .mrw b1 b2 => Sys2Proof.Machine.execMrw b1 b2 s
  | .jz0 => Sys2Proof.Machine.execJz0 s
  | .jgw => Sys2Proof.Machine.execJgw s
  | .jew => Sys2Proof.Machine.execJew s
  | .or0 b1 => Sys2Proof.Machine.execOr0 b1 s
  | .an0 b1 => Sys2Proof.Machine.execAn0 b1 s
  | .je0 b1 => Sys2Proof.Machine.execJe0 b1 s
  | .c01 => Sys2Proof.Machine.execC01 s
  | .c02 => Sys2Proof.Machine.execC02 s
  | .irw => Sys2Proof.Machine.execIrw s
  | .drw => Sys2Proof.Machine.execDrw s
  | .x03 => Sys2Proof.Machine.execX03 s
  | .c03 => Sys2Proof.Machine.execC03 s
  | .c30 => Sys2Proof.Machine.execC30 s
  | .pl0 => Sys2Proof.Machine.execPl0 s
  | .pr0 => Sys2Proof.Machine.execPr0 s
  | .hlt => Sys2Proof.Machine.execHlt s

end Sys2Proof.Machine
end

