-- ==== Sys2Proof/WellFormed.lean ====
section
/-! DEFINITION. Well-formedness: of an instruction, and of one line of the assembly notation of 30_encoding R76.
An `Instr` carries its operands as u8 values, so no ill-formed instruction can be built; a source line holds plain numbers,
so it can be ill-formed, and each check here refuses some line (the smoke tests show one for each). -/

namespace Sys2Proof

/-- The operands are u8 and there are at most two of them (30_encoding R64, R67). The types give it: see `Instr.wf_all`. -/
def Instr.wf (i : Instr) : Bool :=
  decide (i.immediates.length ≤ 2) && i.immediates.all fun b => decide (b.toNat < 0x100)

/-- The mapped opcodes by the ranges of 30_encoding R71 and R74: every other byte is unmapped. -/
def mappedOpcode (op : Byte) : Bool :=
  decide (op.toNat ≤ 0x09) || (decide (0x10 ≤ op.toNat) && decide (op.toNat ≤ 0x19))
    || (decide (0x20 ≤ op.toNat) && decide (op.toNat ≤ 0x2D)) || decide (op.toNat = 0xFF)

/-- One line of the notation of 30_encoding R76, its mnemonic given by the opcode it stands for. -/
structure SourceLine where
  opcode : Byte
  operands : List Nat
  deriving DecidableEq, Repr

/-- The exclusive bound of each operand the notation wants (30_encoding R76): MAR one u16, MRW two u8, F2 one u8, F1 none. -/
def sourceBounds (op : Byte) : List Nat :=
  if op = 0x01 then [0x10000]
  else if op = 0x18 then [0x100, 0x100]
  else if op = 0x17 ∨ op = 0x22 ∨ op = 0x23 ∨ op = 0x24 then [0x100]
  else []

/-- Check 1: the mnemonic names a mapped opcode. -/
def SourceLine.opcodeOk (l : SourceLine) : Bool := mappedOpcode l.opcode

/-- Check 2: as many operands as the format has. -/
def SourceLine.countOk (l : SourceLine) : Bool := l.operands.length == (sourceBounds l.opcode).length

/-- Check 3: every operand is in its range. -/
def SourceLine.rangeOk (l : SourceLine) : Bool :=
  (l.operands.zip (sourceBounds l.opcode)).all fun p => decide (p.1 < p.2)

/-- A well-formed source line passes the three checks. -/
def SourceLine.wf (l : SourceLine) : Bool := l.opcodeOk && l.countOk && l.rangeOk

end Sys2Proof
end

