-- ==== Sys2Proof/Decode.lean ====
section
/-! DEFINITION. The decoder, total on any bytes and rejecting by name, and the encoder, both from the tables of 30_encoding R64 to R72. -/

namespace Sys2Proof

/-- An entry of the 256-slot table (30_encoding R65, R75): the instruction and its format (R64). -/
inductive Slot where
  /-- F1: the opcode byte is the whole instruction. -/
  | f1 (i : Instr)
  /-- F2: one operand byte. -/
  | f2 (make : Byte → Instr)
  /-- F3: two operand bytes, b1 then b2. -/
  | f3 (make : Byte → Byte → Instr)

/-- A row of the opcode table (30_encoding R72). -/
structure OpRow where
  opcode : Byte
  slot : Slot

/-- Row 0x0_ of the opcode map (30_encoding R71). -/
def opcodeRows0 : List OpRow :=
  [⟨0x00, .f1 .nul⟩, ⟨0x01, .f3 .mar⟩, ⟨0x02, .f1 .sic⟩, ⟨0x03, .f1 .rar⟩, ⟨0x04, .f1 .aar⟩,
   ⟨0x05, .f1 .ir0⟩, ⟨0x06, .f1 .a01⟩, ⟨0x07, .f1 .dr0⟩, ⟨0x08, .f1 .s01⟩, ⟨0x09, .f1 .x12⟩]

/-- Row 0x1_ of the opcode map. -/
def opcodeRows1 : List OpRow :=
  [⟨0x10, .f1 .x01⟩, ⟨0x11, .f1 .jmp⟩, ⟨0x12, .f1 .sr0⟩, ⟨0x13, .f1 .srw⟩, ⟨0x14, .f1 .lr0⟩,
   ⟨0x15, .f1 .lrw⟩, ⟨0x16, .f1 .taw⟩, ⟨0x17, .f2 .mr0⟩, ⟨0x18, .f3 .mrw⟩, ⟨0x19, .f1 .jz0⟩]

/-- Rows 0x2_ and 0xF_ of the opcode map. -/
def opcodeRows2 : List OpRow :=
  [⟨0x20, .f1 .jgw⟩, ⟨0x21, .f1 .jew⟩, ⟨0x22, .f2 .or0⟩, ⟨0x23, .f2 .an0⟩, ⟨0x24, .f2 .je0⟩,
   ⟨0x25, .f1 .c01⟩, ⟨0x26, .f1 .c02⟩, ⟨0x27, .f1 .irw⟩, ⟨0x28, .f1 .drw⟩, ⟨0x29, .f1 .x03⟩,
   ⟨0x2A, .f1 .c03⟩, ⟨0x2B, .f1 .c30⟩, ⟨0x2C, .f1 .pl0⟩, ⟨0x2D, .f1 .pr0⟩, ⟨0xFF, .f1 .hlt⟩]

/-- The 35 mapped opcodes (30_encoding R72). -/
def opcodeTable : List OpRow := opcodeRows0 ++ opcodeRows1 ++ opcodeRows2

/-- The slot the opcode byte indexes; `none` is an empty slot, an unmapped opcode (30_encoding R74, R75). -/
def slotOf (op : Byte) : Option Slot :=
  (opcodeTable.find? fun r => r.opcode == op).map OpRow.slot

/-- The length of a slot's instruction, the opcode byte included (30_encoding R64). -/
def slotLength : Slot → Nat
  | .f1 _ => 1
  | .f2 _ => 2
  | .f3 _ => 3

/-- The instruction a slot gives with the bytes after the opcode (30_encoding R64, R67). -/
def fillSlot (b1 b2 : Byte) : Slot → Instr
  | .f1 i => i
  | .f2 make => make b1
  | .f3 make => make b1 b2

/-- The length is a function of the opcode byte alone; an unmapped opcode has none (30_encoding R66). -/
def opcodeLength (op : Byte) : Option Nat := (slotOf op).map slotLength

/-- Decoding with all three bytes at hand, as the cycle does it (30_encoding R75, 40_cycle R78 step 5). -/
def decodeOp (op b1 b2 : Byte) : Option Instr := (slotOf op).map (fillSlot b1 b2)

/-- Why a byte string does not begin with an instruction. -/
inductive DecodeError where
  /-- There is no byte. -/
  | empty
  /-- The first byte indexes an empty slot (30_encoding R74). -/
  | unmapped (op : Byte)
  /-- The string ends before the operand bytes of its opcode. -/
  | truncated (op : Byte)
  deriving DecidableEq, Repr

/-- The instruction at the head of a byte string, and the bytes after it (30_encoding R64). -/
def decode : List Byte → Except DecodeError (Instr × List Byte)
  | [] => .error .empty
  | op :: rest =>
    match slotOf op, rest with
    | none, _ => .error (.unmapped op)
    | some (.f1 i), r => .ok (i, r)
    | some (.f2 make), b1 :: r => .ok (make b1, r)
    | some (.f3 make), b1 :: b2 :: r => .ok (make b1 b2, r)
    | some (.f2 _), [] => .error (.truncated op)
    | some (.f3 _), [] => .error (.truncated op)
    | some (.f3 _), [_] => .error (.truncated op)

/-- The opcode byte of an instruction (30_encoding R72). -/
def opcodeOf : Instr → Byte
  | .nul => 0x00
  | .mar _ _ => 0x01
  | .sic => 0x02
  | .rar => 0x03
  | .aar => 0x04
  | .ir0 => 0x05
  | .a01 => 0x06
  | .dr0 => 0x07
  | .s01 => 0x08
  | .x12 => 0x09
  | .x01 => 0x10
  | .jmp => 0x11
  | .sr0 => 0x12
  | .srw => 0x13
  | .lr0 => 0x14
  | .lrw => 0x15
  | .taw => 0x16
  | .mr0 _ => 0x17
  | .mrw _ _ => 0x18
  | .jz0 => 0x19
  | .jgw => 0x20
  | .jew => 0x21
  | .or0 _ => 0x22
  | .an0 _ => 0x23
  | .je0 _ => 0x24
  | .c01 => 0x25
  | .c02 => 0x26
  | .irw => 0x27
  | .drw => 0x28
  | .x03 => 0x29
  | .c03 => 0x2A
  | .c30 => 0x2B
  | .pl0 => 0x2C
  | .pr0 => 0x2D
  | .hlt => 0xFF

/-- The bytes of an instruction in address order: the opcode, then its immediates (30_encoding R64). -/
def encode (i : Instr) : List Byte := opcodeOf i :: i.immediates

/-- The length of an instruction in bytes, the opcode byte included (30_encoding R64, R66). -/
def lengthOf (i : Instr) : Nat := 1 + i.immediates.length

/-- The instruction a well-formed source line stands for; `none` for an ill-formed one (30_encoding R76).
MAR's one operand is a u16, laid out low byte first (R68); MRW's operands are b1, then b2. -/
def assemble (l : SourceLine) : Option Instr :=
  if l.wf then
    match l.operands with
    | [] => decodeOp l.opcode 0 0
    | [n] => decodeOp l.opcode (BitVec.ofNat 8 n) (BitVec.ofNat 8 (n / 0x100))
    | n :: m :: _ => decodeOp l.opcode (BitVec.ofNat 8 n) (BitVec.ofNat 8 m)
  else none

/-- The three bytes of a number in the bit numbering of 30_encoding R64: bits 7..0 are the byte at IC, 15..8 at IC+1, 23..16 at IC+2.
Bits from `nbits` up are 0. -/
def tableByte (nbits w k : Nat) : Byte := BitVec.ofNat 8 (w % 2 ^ nbits / 0x100 ^ k)

/-- The instruction the decoder reads from an instruction numbered as spec/opcode_table.json numbers it. -/
def decodeTableWord (nbits w : Nat) : Option Instr :=
  match decode [tableByte nbits w 0, tableByte nbits w 1, tableByte nbits w 2] with
  | .ok (i, _) => some i
  | .error _ => none

end Sys2Proof
end

