-- ==== Sys2Proof/Machine/Fetch.lean ====
section
/-! DEFINITION. What a Cycle does around the instruction's own effect (40_cycle R78 steps 1 to 5): the opcode fetch, the watchdog
update, the operand fetch and the decoding; and how an instruction is laid in memory so that the next Cycle runs it. -/

namespace Sys2Proof.Machine

/-- Step 1: the opcode byte, read before the watchdog update (40_cycle R81). -/
def fetchOpcode (s : State) : Byte := s.load s.ic

/-- Step 3: WD_INC counts up by one modulo 0x100. -/
def tickWdInc (s : State) : State := s.store Config.wdIncAddr (s.load Config.wdIncAddr + 1)

/-- Step 4: WD_DEC counts down by one modulo 0x100. -/
def tickWdDec (s : State) : State := s.store Config.wdDecAddr (s.load Config.wdDecAddr - 1)

/-- Steps 2 to 4, in every Cycle whatever the opcode (40_cycle R79): CUROP records the opcode, then the two watchdog bytes are updated. -/
def beginCycle (s : State) : State := tickWdDec (tickWdInc (s.setCurop (fetchOpcode s)))

/-- Step 5: the instruction this Cycle runs, its operand bytes read AFTER the watchdog update (40_cycle R81); `none` for an
unmapped opcode. Both operand bytes are read whatever the length, which nothing can observe (20_memory R50; log entry 10). -/
def fetchInstr (s : State) : Option Instr :=
  let t := beginCycle s
  decodeOp (fetchOpcode s) (t.load (operandAddress t 1)) (t.load (operandAddress t 2))

/-- The byte to place at `a` so that a read after the next watchdog update gives `b` (40_cycle R78 steps 3 and 4). -/
def beforeTick (a : Word) (b : Byte) : Byte :=
  if a = Config.wdIncAddr then b - 1 else if a = Config.wdDecAddr then b + 1 else b

/-- Three bytes laid where the next Cycle fetches its instruction: the opcode as it stands, since it is fetched before the
watchdog update, and the operand bytes so that they read as given after it. -/
def placeInstr (s : State) (op b1 b2 : Byte) : State :=
  let a1 := operandAddress s 1
  let a2 := operandAddress s 2
  ((s.store s.ic op).store a1 (beforeTick a1 b1)).store a2 (beforeTick a2 b2)

end Sys2Proof.Machine
end

