-- ==== Sys2Proof/Machine/Step.lean ====
section
/-! DEFINITION. One step is one Cycle (40_cycle R78). It does not read HLT or FLT (R83, R85). -/

namespace Sys2Proof.Machine

/-- The Cycle transaction: fetch, record, update the watchdog bytes, decode; then the instruction's effect, or the taking of
UnknownOpcode, which has a next state (60_exceptions R138, 40_cycle R85; log entry 4). -/
def step (s : State) : Host.Outcome State Fault Refusal :=
  match fetchInstr s with
  | some i => exec i (beginCycle s)
  | none => .next (takeUnknownOpcode (beginCycle s) (fetchOpcode s))

/-- `s` with the instruction of the opcode table's numbering placed where the next Cycle fetches it (log entry 5). -/
def State.withFetchWord (s : State) (nbits w : Nat) : State :=
  placeInstr s (tableByte nbits w 0) (tableByte nbits w 1) (tableByte nbits w 2)

end Sys2Proof.Machine
end

