-- ==== Sys2Proof/Machine/Resets.lean ====
section
/-! DEFINITION. The host's memory operations, the three resets, power-on and the program load (20_memory R52 to R56, 70_reset R152 to R157). -/

namespace Sys2Proof.Machine

/-- ClearVideo: both planes back to 0x00 (20_memory R52). -/
def clearVideo (s : State) : State := s.setMem (memClear s.mem 0xE000 0xFFFF)

/-- ClearRam: RAM back to the 0xFF sentinel (20_memory R52). -/
def clearRam (s : State) : State := s.setMem (memClear s.mem 0x0100 0xDFFF)

/-- ClearIo: the IO page back to 0x00 (20_memory R52). -/
def clearIo (s : State) : State := s.setMem (memClear s.mem 0x0000 0x00FF)

/-- ClearAll (20_memory R52). -/
def clearAll (s : State) : State := clearIo (clearRam (clearVideo s))

/-- The address of the brightness byte of pixel index i (20_memory R40). -/
def brightnessAddr (i : Fin 4096) : Word := 0xE000 + BitVec.ofNat 16 i.val

/-- The address of the color byte of pixel index i (20_memory R40). -/
def colorAddr (i : Fin 4096) : Word := 0xF000 + BitVec.ofNat 16 i.val

/-- WriteGlyph: the glyph's writes into the brightness plane, in list order (20_memory R53). -/
def writeGlyph (g : Config.Glyph) (s : State) : State :=
  g.foldl (fun t w => t.store (brightnessAddr w.1) w.2) s

/-- A glyph whose lit pixels all hold GLYPH_VALUE (D11). -/
def litGlyph (p : Config.Params) (lit : List (Fin 4096)) : Config.Glyph := lit.map fun i => (i, p.glyphValue)

/-- EngineReset (70_reset R153): the register file and the two watchdog bytes; CUROP, FLT.op, FLT.ic and the rest of memory stay. -/
def engineReset (s : State) : State :=
  ({ s with
      ar := 0x0000, ic := Config.resetIc, r0 := 0x00, r1 := 0x00, r2 := 0x00, r3 := 0x00
      hlt := false, flt := { s.flt with faulted := false } }.store Config.wdIncAddr 0x00).store Config.wdDecAddr 0x00

/-- SoftReset (70_reset R154): RAM and video cleared, the engine reset, no glyph, the IO page kept but for the watchdog bytes. -/
def softReset (s : State) : State := engineReset (clearVideo (clearRam s))

/-- HardReset (70_reset R155): the IO page cleared too, and the boot glyph written after the video clear. -/
def hardReset (p : Config.Params) (s : State) : State :=
  writeGlyph p.bootGlyph (engineReset (clearVideo (clearRam (clearIo s))))

/-- The power-on state (70_reset R152) with the boot glyph and the values the spec leaves unspecified given as arguments. -/
def State.powerOn (g : Config.Glyph) (curop fltOp : Byte) (fltIc : Word) : State :=
  writeGlyph g { State.reset with curop := curop, flt := ⟨false, fltOp, fltIc⟩, mem := [] }

/-- What LoadImage answers (70_reset R157). -/
inductive LoadResult where
  | ok
  | programLoadFailure
  deriving DecidableEq, Repr

/-- LoadImage succeeds when the host can supply the image and it fits RAM (70_reset R157, D17). -/
def loadResult : Option (List Byte) → LoadResult
  | none => .programLoadFailure
  | some bytes => if bytes.length > Config.ramSize then .programLoadFailure else .ok

/-- LoadImage (70_reset R157): `none` is an image the host cannot supply; a failed load writes nothing (60_exceptions R140). -/
def loadImage (image : Option (List Byte)) (s : State) : State :=
  match loadResult image, image with
  | .ok, some bytes => s.setMem (memWriteBytes s.mem Config.resetIc bytes)
  | _, _ => s

end Sys2Proof.Machine
end

