-- ==== Sys2Proof/Machine/Rasterizer.lean ====
section
/-! DEFINITION. The rasterizer: a pure function of the two video planes, and the redraw flag (spec/48_rasterizer.md). -/

namespace Sys2Proof.Machine

/-- The four colours of the truth table (48_rasterizer R130). -/
inductive Colour where
  /-- D -/
  | black
  /-- C -/
  | blue
  /-- B -/
  | white
  /-- A -/
  | yellow
  deriving DecidableEq, Repr

/-- The 2-bit colour code (48_rasterizer R130). -/
def colourCode : Colour → BitVec 2
  | .black => 0
  | .blue => 1
  | .white => 2
  | .yellow => 3

/-- The truth table (48_rasterizer R130). -/
def colourOf (bright color : Bool) : Colour :=
  match bright, color with
  | true, true => .yellow
  | true, false => .white
  | false, true => .blue
  | false, false => .black

/-- The index of the pixel in column x and row y, from the top left (48_rasterizer R128). -/
def pixelIndex (x y : Fin 64) : Fin 4096 := ⟨y.val * 64 + x.val, by omega⟩

/-- `bright(i)` (48_rasterizer R129). -/
def pixelBright (s : State) (i : Fin 4096) : Bool := s.load (brightnessAddr i) != 0x00

/-- `color(i)` (48_rasterizer R129). -/
def pixelColor (s : State) (i : Fin 4096) : Bool := s.load (colorAddr i) != 0x00

/-- The colour of pixel i (48_rasterizer R130). -/
def pixelColour (s : State) (i : Fin 4096) : Colour := colourOf (pixelBright s i) (pixelColor s i)

/-- Pixel(i): the colour code, `none` outside 0..4095 (48_rasterizer R131). -/
def pixel (s : State) (i : Nat) : Option (BitVec 2) :=
  if h : i < 4096 then some (colourCode (pixelColour s ⟨i, h⟩)) else none

/-- Render: the 4096 codes in index order, all from this one state (48_rasterizer R132). -/
def render (s : State) : List (BitVec 2) := (List.finRange 4096).map fun i => colourCode (pixelColour s i)

/-- What the display shows of a rendered image under PALETTE, which maps each code to a display colour (48_rasterizer R130, D15). -/
def display {α : Type} (palette : BitVec 2 → α) (image : List (BitVec 2)) : List α := image.map palette

/-- ShouldRedraw (48_rasterizer R133). -/
def shouldRedraw (s : State) : Bool := s.load Config.drawAddr != 0x00

end Sys2Proof.Machine
end

