-- ==== Sys2Proof/Machine/Transactions.lean ====
section
/-! DEFINITION. The transactions of 00_scope R8, each an atomic map from the state at one boundary to the state at the next (R7),
with the reply the host is given. The Cycle is `step`; every other one happens between two Cycles (40_cycle R87). -/

namespace Sys2Proof.Machine

/-- What ReadRegs shows (10_state R34). -/
structure RegView where
  ar : Word
  ic : Word
  r0 : Byte
  r1 : Byte
  r2 : Byte
  r3 : Byte
  hlt : Bool
  curop : Byte
  flt : FaultLatch
  deriving DecidableEq, Repr

/-- The transactions (00_scope R8). A glyph is given as the writes its pattern, column and row stand for (20_memory R53; log entry 6);
an image the host cannot supply is `none` (70_reset R157). -/
inductive Txn where
  | cycle
  | engineReset
  | softReset
  | hardReset
  | clearVideo
  | clearRam
  | clearIo
  | clearAll
  | writeGlyph (g : Config.Glyph)
  | hostWrite (a : Word) (v : Byte)
  | hostRead (a : Word)
  | loadImage (image : Option (List Byte))
  | readRegs
  | pixel (i : Nat)
  | render
  | shouldRedraw
  deriving DecidableEq, Repr

/-- What a transaction answers (00_scope R8, the result column). -/
inductive Reply where
  | done
  /-- Cycle: `none` is ok, `some` the fault it raised. -/
  | cycle (raised : Option Fault)
  | byte (v : Byte)
  | load (r : LoadResult)
  | regs (v : RegView)
  | colour (code : BitVec 2)
  | image (codes : List (BitVec 2))
  | flag (b : Bool)
  deriving DecidableEq, Repr

/-- The numbered causes of 60_exceptions R137. -/
inductive Cause where
  | none
  | unknownOpcode
  | invalidAddress
  | programLoadFailure
  deriving DecidableEq, Repr

/-- The cause codes (60_exceptions R137); invalidAddress only has its number, no transaction answers with it (R139). -/
def causeCode : Cause → Nat
  | .none => 0
  | .unknownOpcode => 1
  | .invalidAddress => 2
  | .programLoadFailure => 3

/-- The cause a reply reports (60_exceptions R137). -/
def replyCause : Reply → Cause
  | .cycle (some (.unknownOpcode _ _)) => .unknownOpcode
  | .load .programLoadFailure => .programLoadFailure
  | .cycle .none | .load .ok | .done | .byte _ | .regs _ | .colour _ | .image _ | .flag _ => .none

/-- The cause FLT holds: FLT.faulted = 1 always means code 1 (60_exceptions R137). -/
def latchedCause (s : State) : Cause := if s.flt.faulted then .unknownOpcode else .none

/-- The result the host is given of a Cycle issued in this state: ok, or UnknownOpcode(op, ic) (00_scope R8, 40_cycle R78). -/
def cycleResult (s : State) : Option Fault :=
  match fetchInstr s with
  | some _ => none
  | none => some (.unknownOpcode (fetchOpcode s) s.ic)

/-- ReadRegs (10_state R34). -/
def readRegs (s : State) : RegView :=
  { ar := s.ar, ic := s.ic, r0 := s.r0, r1 := s.r1, r2 := s.r2, r3 := s.r3, hlt := s.hlt, curop := s.curop, flt := s.flt }

/-- One transaction: the next state and the reply (00_scope R7, R8). -/
def transact (p : Config.Params) (x : Txn) (s : State) : Host.Outcome (State × Reply) Fault Refusal :=
  match x with
  | .cycle =>
    match step s with
    | .next t => .next (t, .cycle (cycleResult s))
    | .fault r => .fault r
    | .refused r => .refused r
  | .engineReset => .next (Sys2Proof.Machine.engineReset s, .done)
  | .softReset => .next (Sys2Proof.Machine.softReset s, .done)
  | .hardReset => .next (Sys2Proof.Machine.hardReset p s, .done)
  | .clearVideo => .next (Sys2Proof.Machine.clearVideo s, .done)
  | .clearRam => .next (Sys2Proof.Machine.clearRam s, .done)
  | .clearIo => .next (Sys2Proof.Machine.clearIo s, .done)
  | .clearAll => .next (Sys2Proof.Machine.clearAll s, .done)
  | .writeGlyph g => .next (Sys2Proof.Machine.writeGlyph g s, .done)
  | .hostWrite a v => .next (s.store a v, .done)
  | .hostRead a => .next (s, .byte (s.load a))
  | .loadImage image => .next (Sys2Proof.Machine.loadImage image s, .load (loadResult image))
  | .readRegs => .next (s, .regs (Sys2Proof.Machine.readRegs s))
  | .pixel i =>
    match Sys2Proof.Machine.pixel s i with
    | some c => .next (s, .colour c)
    | none => .refused (.pixelIndexOutOfRange i)
  | .render => .next (s, .image (Sys2Proof.Machine.render s))
  | .shouldRedraw => .next (s, .flag (Sys2Proof.Machine.shouldRedraw s))

/-- Transactions in order, with their replies (40_cycle R87, R89); stops at the first that does not answer a next state. -/
def transactAll (p : Config.Params) : List Txn → State → Host.Outcome (State × List Reply) Fault Refusal
  | [], s => .next (s, [])
  | x :: xs, s =>
    match transact p x s with
    | .next (t, r) =>
      match transactAll p xs t with
      | .next (u, rs) => .next (u, r :: rs)
      | .fault e => .fault e
      | .refused e => .refused e
    | .fault e => .fault e
    | .refused e => .refused e

end Sys2Proof.Machine
end

