-- ==== Sys2Proof/Machine/Driver.lean ====
section
/-! DEFINITION. The host's side that the spec describes: the keyboard's values, the driver's duties and the driver's loop
(20_memory R45, 40_cycle R84 to R88, 48_rasterizer R134). The block itself obeys none of this: it is the host's contract. -/

namespace Sys2Proof.Machine

/-- What the keyboard can write (20_memory R45): at most one pressed direction or action. -/
inductive Key where
  | noInput
  | up
  | down
  | left
  | right
  | action
  deriving DecidableEq, Repr

/-- The byte of a key (20_memory R45). -/
def keyByte : Key → Byte
  | .noInput => 0x00
  | .up => 0x01
  | .down => 0x02
  | .left => 0x04
  | .right => 0x08
  | .action => 0x10

/-- The keyboard's transaction (20_memory R45, 70_reset R164). -/
def keyWrite (k : Key) : Txn := .hostWrite Config.keyAddr (keyByte k)

/-- Whether the host clears the keyboard byte, given what it knows: that the key was released, that the program has read the byte
(D13, log entry 8). -/
def clearsKey (policy : Config.KeyClearPolicy) (released wasRead : Bool) : Bool :=
  match policy with
  | .onRelease => released
  | .afterOneRead => wasRead

/-- The driver may issue a Cycle: not while HLT = 1 (40_cycle R84) and not while FLT.faulted = 1 (R85). -/
def mayCycle (s : State) : Bool := !s.hlt && !s.flt.faulted

/-- The state after a Cycle; a Cycle always answers a next state. -/
def afterCycle (s : State) : State :=
  match step s with
  | .next t => t
  | .fault _ => s
  | .refused _ => s

/-- A run under the driver: the block's state, the keyboard writes still to come (one entry before each Cycle, `none` for no write),
and the images rendered so far, oldest first. -/
structure Driven where
  state : State
  keys : List (Option Key)
  frames : List (List (BitVec 2))
  deriving DecidableEq, Repr

/-- The keyboard's write, if there is one, before the next Cycle (40_cycle R88). -/
def pressKey (d : Driven) : Driven :=
  match d.keys with
  | [] => d
  | none :: ks => { d with keys := ks }
  | some k :: ks => { d with state := d.state.store Config.keyAddr (keyByte k), keys := ks }

/-- "repeat … times: if HLT = 1 or FLT.faulted = 1: leave the repeat; Cycle()" (40_cycle R88). -/
def driverBurst : Nat → Driven → Driven
  | 0, d => d
  | n + 1, d =>
    if mayCycle d.state then
      let e := pressKey d
      driverBurst n { e with state := afterCycle e.state }
    else d

/-- "if ShouldRedraw(): Render(); HostWrite(0x000A, 0x00)" (40_cycle R88, 48_rasterizer R134). -/
def driverCheck (d : Driven) : Driven :=
  if shouldRedraw d.state then
    { d with state := d.state.store Config.drawAddr 0x00, frames := d.frames ++ [render d.state] }
  else d

/-- One pass of the driver's loop (40_cycle R88). -/
def driverRound (p : Config.Params) (d : Driven) : Driven := driverCheck (driverBurst p.redrawInterval d)

/-- The driver's loop (40_cycle R88), at most `fuel` passes; it stops by itself once HLT = 1 or FLT.faulted = 1. -/
def driverLoop (p : Config.Params) : Nat → Driven → Driven
  | 0, d => d
  | fuel + 1, d =>
    let e := driverRound p d
    if mayCycle e.state then driverLoop p fuel e else e

end Sys2Proof.Machine
end

