-- ==== Sys2Proof/Machine/Run.lean ====
section
/-! DEFINITION. The end of a run (40_cycle R89): a run is a sequence of transactions from a start state, and it ends at the FIRST
boundary after a Cycle that executed HLT or raised UnknownOpcode, whatever the latches held before that Cycle. -/

namespace Sys2Proof.Machine

/-- How a run stands (40_cycle R89). -/
inductive RunEnd where
  | running
  | halted
  | faulted
  deriving DecidableEq, Repr

/-- A run up to its end, or up to the last boundary while it is running (40_cycle R89). -/
structure Run where
  /-- How it stands there. -/
  how : RunEnd
  /-- The state at that boundary. -/
  state : State
  /-- How many transactions it has made, the one that ended it included. -/
  count : Nat
  deriving DecidableEq, Repr

/-- How a Cycle from `s` to `t` ends the run: faulted where it raised UnknownOpcode, halted where it executed HLT and leaves HLT = 1 and
FLT.faulted = 0 (40_cycle R89; log entry 15 for a start state that has FLT.faulted = 1). -/
def cycleEnd (s t : State) : RunEnd :=
  match fetchInstr s with
  | none => .faulted
  | some i => if i = .hlt ∧ t.hlt = true ∧ t.flt.faulted = false then .halted else .running

/-- How a transaction from `s` to `t` ends the run: only a Cycle can end one (40_cycle R89). -/
def boundaryEnd (x : Txn) (s t : State) : RunEnd :=
  match x with
  | .cycle => cycleEnd s t
  | .engineReset | .softReset | .hardReset | .clearVideo | .clearRam | .clearIo | .clearAll | .writeGlyph _ | .hostWrite _ _
  | .hostRead _ | .loadImage _ | .readRegs | .pixel _ | .render | .shouldRedraw => .running

/-- A run with one more transaction before it. -/
def oneMore : Host.Outcome Run Fault Refusal → Host.Outcome Run Fault Refusal
  | .next r => .next { r with count := r.count + 1 }
  | .fault e => .fault e
  | .refused e => .refused e

/-- The run of a list of transactions (40_cycle R89). What the host issues after the end is no part of it; a request that is refused
before the end is answered as `transactAll` answers it. -/
def run (p : Config.Params) : List Txn → State → Host.Outcome Run Fault Refusal
  | [], s => .next ⟨.running, s, 0⟩
  | x :: xs, s =>
    match transact p x s with
    | .next (t, _) =>
      match boundaryEnd x s t with
      | .running => oneMore (run p xs t)
      | .halted => .next ⟨.halted, t, 1⟩
      | .faulted => .next ⟨.faulted, t, 1⟩
    | .fault e => .fault e
    | .refused e => .refused e

/-- "a run that does neither is running and may be infinite" (40_cycle R89): the n-th transaction is `host n`, and no first n end it. -/
def runsForever (p : Config.Params) (host : Nat → Txn) (s : State) : Prop :=
  ∀ n : Nat, ∃ t, run p ((List.range n).map host) s = .next ⟨.running, t, n⟩

end Sys2Proof.Machine
end

