-- ==== Sys2Proof/Safety.lean ====
section
/-! DEFINITION. What a good state, a successful run and a dutiful host are, in the terms the claims use. -/

namespace Sys2Proof

open Sys2Proof.Machine

/-- The invariant of every state a run can reach: the memory list is in its canonical form.
Everything else a state must satisfy (10_state R21: no register outside its width) its types give. -/
abbrev Inv (s : State) : Prop := s.mem.wf = true

/-- "Only a halted end is a successful end" (40_cycle R89). -/
def successful (r : Run) : Bool := r.how == .halted

/-- The host's transaction is allowed by its duties in this state (40_cycle R84, R85, 70_reset R164). -/
def dutiful (x : Txn) (s : State) : Bool :=
  match x with
  | .cycle => mayCycle s
  | .hostWrite a v =>
    a != Config.keyAddr
      || (v == 0x00 || v == 0x01 || v == 0x02 || v == 0x04 || v == 0x08 || v == 0x10)
  | .engineReset | .softReset | .hardReset | .clearVideo | .clearRam | .clearIo | .clearAll | .writeGlyph _ | .hostRead _
  | .loadImage _ | .readRegs | .pixel _ | .render | .shouldRedraw => true

end Sys2Proof
end

