-- ==== Sys2Proof/Certificates/Slice0/Obligations.lean ====
section
/-! DEFINITION. The statements for the provers, each with the rule of spec/ it formalises.
A result written as an equation with a record update states the frame too: every field the update does not name is unchanged. -/

namespace Sys2Proof.Claims

open Sys2Proof.Machine

/-- An outcome with its next state mapped. -/
def mapNext (f : State → State) : Host.Outcome State Fault Refusal → Host.Outcome State Fault Refusal
  | .next t => .next (f t)
  | .fault r => .fault r
  | .refused r => .refused r

/-- The addresses an instruction stores to, computed as its meaning computes them (20_memory R41, column "writes", beyond the cycle's). -/
def storesTo (i : Instr) (s : State) (a : Word) : Bool :=
  match i with
  | .sr0 => a == effectiveAddress s
  | .sic | .srw => a == effectiveAddress s || a == nextAddress (effectiveAddress s)
  | .nul | .mar _ _ | .rar | .aar | .ir0 | .a01 | .dr0 | .s01 | .x12 | .x01 | .jmp | .lr0 | .lrw | .taw | .mr0 _
  | .mrw _ _ | .jz0 | .jgw | .jew | .or0 _ | .an0 _ | .je0 _ | .c01 | .c02 | .irw | .drw | .x03 | .c03 | .c30 | .pl0
  | .pr0 | .hlt => false

/-- 10_state R23, R0, column "read by". -/
def readsR0 : Instr → Bool
  | .aar | .ir0 | .a01 | .dr0 | .s01 | .x01 | .sr0 | .jz0 | .or0 _ | .an0 _ | .je0 _ | .c01 | .c02 | .x03 | .c03 | .pl0 | .pr0 => true
  | .nul | .mar _ _ | .sic | .rar | .x12 | .jmp | .srw | .lr0 | .lrw | .taw | .mr0 _ | .mrw _ _ | .jgw | .jew | .irw
  | .drw | .c30 | .hlt => false

/-- 10_state R23, R0, column "written by". -/
def writesR0 : Instr → Bool
  | .ir0 | .dr0 | .x01 | .lr0 | .mr0 _ | .or0 _ | .an0 _ | .x03 | .c30 | .pl0 | .pr0 => true
  | .nul | .mar _ _ | .sic | .rar | .aar | .a01 | .s01 | .x12 | .jmp | .sr0 | .srw | .lrw | .taw | .mrw _ _ | .jz0 | .jgw
  | .jew | .je0 _ | .c01 | .c02 | .irw | .drw | .c03 | .hlt => false

/-- 10_state R23, R1, column "read by". -/
def readsR1 : Instr → Bool
  | .rar | .a01 | .s01 | .x12 | .x01 | .srw | .jgw | .jew | .irw | .drw => true
  | .nul | .mar _ _ | .sic | .aar | .ir0 | .dr0 | .jmp | .sr0 | .lr0 | .lrw | .taw | .mr0 _ | .mrw _ _ | .jz0 | .or0 _
  | .an0 _ | .je0 _ | .c01 | .c02 | .x03 | .c03 | .c30 | .pl0 | .pr0 | .hlt => false

/-- 10_state R23, R1, column "written by". -/
def writesR1 : Instr → Bool
  | .a01 | .s01 | .x12 | .x01 | .lrw | .taw | .mrw _ _ | .c01 | .irw | .drw => true
  | .nul | .mar _ _ | .sic | .rar | .aar | .ir0 | .dr0 | .jmp | .sr0 | .srw | .lr0 | .mr0 _ | .jz0 | .jgw | .jew | .or0 _
  | .an0 _ | .je0 _ | .c02 | .x03 | .c03 | .c30 | .pl0 | .pr0 | .hlt => false

/-- 10_state R23, R2, column "read by". -/
def readsR2 : Instr → Bool
  | .rar | .a01 | .s01 | .x12 | .srw | .jgw | .jew | .irw | .drw => true
  | .nul | .mar _ _ | .sic | .aar | .ir0 | .dr0 | .x01 | .jmp | .sr0 | .lr0 | .lrw | .taw | .mr0 _ | .mrw _ _ | .jz0
  | .or0 _ | .an0 _ | .je0 _ | .c01 | .c02 | .x03 | .c03 | .c30 | .pl0 | .pr0 | .hlt => false

/-- 10_state R23, R2, column "written by". -/
def writesR2 : Instr → Bool
  | .a01 | .s01 | .x12 | .lrw | .taw | .mrw _ _ | .c02 | .irw | .drw => true
  | .nul | .mar _ _ | .sic | .rar | .aar | .ir0 | .dr0 | .x01 | .jmp | .sr0 | .srw | .lr0 | .mr0 _ | .jz0 | .jgw | .jew
  | .or0 _ | .an0 _ | .je0 _ | .c01 | .x03 | .c03 | .c30 | .pl0 | .pr0 | .hlt => false

/-- 10_state R23, R3, column "read by". -/
def readsR3 : Instr → Bool
  | .x03 | .c30 => true
  | .nul | .mar _ _ | .sic | .rar | .aar | .ir0 | .a01 | .dr0 | .s01 | .x12 | .x01 | .jmp | .sr0 | .srw | .lr0 | .lrw
  | .taw | .mr0 _ | .mrw _ _ | .jz0 | .jgw | .jew | .or0 _ | .an0 _ | .je0 _ | .c01 | .c02 | .irw | .drw | .c03 | .pl0
  | .pr0 | .hlt => false

/-- 10_state R23, R3, column "written by". -/
def writesR3 : Instr → Bool
  | .x03 | .c03 => true
  | .nul | .mar _ _ | .sic | .rar | .aar | .ir0 | .a01 | .dr0 | .s01 | .x12 | .x01 | .jmp | .sr0 | .srw | .lr0 | .lrw
  | .taw | .mr0 _ | .mrw _ _ | .jz0 | .jgw | .jew | .or0 _ | .an0 _ | .je0 _ | .c01 | .c02 | .irw | .drw | .c30 | .pl0
  | .pr0 | .hlt => false

/-- 10_state R24: the instructions that read AR. -/
def readsAr : Instr → Bool
  | .sic | .aar | .sr0 | .srw | .lr0 | .lrw | .taw | .jmp | .jz0 | .jgw | .jew | .je0 _ => true
  | .nul | .mar _ _ | .rar | .ir0 | .a01 | .dr0 | .s01 | .x12 | .x01 | .mr0 _ | .mrw _ _ | .or0 _ | .an0 _ | .c01 | .c02
  | .irw | .drw | .x03 | .c03 | .c30 | .pl0 | .pr0 | .hlt => false

/-- 10_state R24: the instructions that write AR. -/
def writesAr : Instr → Bool
  | .mar _ _ | .rar | .aar => true
  | .nul | .sic | .ir0 | .a01 | .dr0 | .s01 | .x12 | .x01 | .jmp | .sr0 | .srw | .lr0 | .lrw | .taw | .mr0 _ | .mrw _ _
  | .jz0 | .jgw | .jew | .or0 _ | .an0 _ | .je0 _ | .c01 | .c02 | .irw | .drw | .x03 | .c03 | .c30 | .pl0 | .pr0 | .hlt => false

/-- 10_state R26: when an instruction is a taken jump (45_control R122 to R126). -/
def jumpTaken (i : Instr) (s : State) : Prop :=
  match i with
  | .jmp => True
  | .jz0 => s.r0 = 0x00
  | .jgw => s.r1.toNat > s.r2.toNat
  | .jew => s.r1 = s.r2
  | .je0 b1 => s.r0 = b1
  | .nul | .mar _ _ | .sic | .rar | .aar | .ir0 | .a01 | .dr0 | .s01 | .x12 | .x01 | .sr0 | .srw | .lr0 | .lrw | .taw
  | .mr0 _ | .mrw _ _ | .or0 _ | .an0 _ | .c01 | .c02 | .irw | .drw | .x03 | .c03 | .c30 | .pl0 | .pr0 | .hlt => False

/-- The register values every reset leaves (10_state R35). -/
def ResetRegisters (t : State) : Prop :=
  t.ar = 0x0000 ∧ t.ic = 0x0100 ∧ t.r0 = 0x00 ∧ t.r1 = 0x00 ∧ t.r2 = 0x00 ∧ t.r3 = 0x00 ∧ t.hlt = false ∧ t.flt.faulted = false

/-- The latches no reset touches (10_state R35). -/
def SameInspection (s t : State) : Prop := t.curop = s.curop ∧ t.flt.op = s.flt.op ∧ t.flt.ic = s.flt.ic

/-- The byte a glyph leaves at a brightness index over a plane byte: its last write there (20_memory R53: "applied in list order"). -/
def glyphByte (g : Config.Glyph) (i : Fin 4096) (before : Byte) : Byte :=
  g.foldl (fun v w => if w.1 = i then w.2 else v) before

/-- What an access after the watchdog update of a Cycle from `s` reads at an address, until the instruction stores there (40_cycle R78
steps 3 and 4, R81). -/
def afterWatchdog (s : State) (a : Word) : Byte :=
  if a = 0x0010 then s.load 0x0010 + 1 else if a = 0x0011 then s.load 0x0011 - 1 else s.load a

/-- The next Cycle from `t` runs the opcode byte as it stands, with the operand bytes as they stand after its watchdog update. -/
def NextCycleRuns (t : State) (op b1 b2 : Byte) : Prop :=
  ∃ u, step t = .next u ∧ u.curop = op
    ∧ (∀ i, decodeOp op b1 b2 = some i → exec i (beginCycle t) = .next u)
    ∧ (slotOf op = none → u.flt = ⟨true, op, t.ic⟩)

/-- The byte an instruction stores at an address, if it stores there (41_address R92, 44_load_store R117, R118). -/
def storedByte (i : Instr) (s : State) (a : Word) : Option Byte :=
  match i with
  | .sr0 => if a = effectiveAddress s then some s.r0 else none
  | .srw => if a = nextAddress (effectiveAddress s) then some s.r2 else if a = effectiveAddress s then some s.r1 else none
  | .sic =>
    if a = nextAddress (effectiveAddress s) then some (highByte s.ic)
    else if a = effectiveAddress s then some (lowByte s.ic) else none
  | .nul | .mar _ _ | .rar | .aar | .ir0 | .a01 | .dr0 | .s01 | .x12 | .x01 | .jmp | .lr0 | .lrw | .taw | .mr0 _
  | .mrw _ _ | .jz0 | .jgw | .jew | .or0 _ | .an0 _ | .je0 _ | .c01 | .c02 | .irw | .drw | .x03 | .c03 | .c30 | .pl0
  | .pr0 | .hlt => none

/-- No Cycle of the run stores to a watchdog byte. -/
def quiet : Nat → State → Bool
  | 0, _ => true
  | n + 1, s =>
    (match fetchInstr s with
      | some i => !storesTo i (beginCycle s) Config.wdIncAddr && !storesTo i (beginCycle s) Config.wdDecAddr
      | none => true)
      && quiet n (afterCycle s)

/-- The transactions that may change a register (10_state R34). -/
def registerTxn : Txn → Bool
  | .cycle | .engineReset | .softReset | .hardReset => true
  | .clearVideo | .clearRam | .clearIo | .clearAll | .writeGlyph _ | .hostWrite _ _ | .hostRead _ | .loadImage _ | .readRegs
  | .pixel _ | .render | .shouldRedraw => false

end Sys2Proof.Claims

open Sys2Proof Sys2Proof.Machine Sys2Proof.Claims

/-! ### Encoding -/

/-- 30_encoding R72: every mapped opcode with its length selects its instruction, and the bytes after it are left. -/
def Obligations.OpcodeMapSelectsInstructions : Prop :=
  ∀ (b1 b2 : Byte) (rest : List Byte),
    decode (0x00 :: rest) = .ok (.nul, rest) ∧ decode (0x01 :: b1 :: b2 :: rest) = .ok (.mar b1 b2, rest)
      ∧ decode (0x02 :: rest) = .ok (.sic, rest) ∧ decode (0x03 :: rest) = .ok (.rar, rest)
      ∧ decode (0x04 :: rest) = .ok (.aar, rest) ∧ decode (0x05 :: rest) = .ok (.ir0, rest)
      ∧ decode (0x06 :: rest) = .ok (.a01, rest) ∧ decode (0x07 :: rest) = .ok (.dr0, rest)
      ∧ decode (0x08 :: rest) = .ok (.s01, rest) ∧ decode (0x09 :: rest) = .ok (.x12, rest)
      ∧ decode (0x10 :: rest) = .ok (.x01, rest) ∧ decode (0x11 :: rest) = .ok (.jmp, rest)
      ∧ decode (0x12 :: rest) = .ok (.sr0, rest) ∧ decode (0x13 :: rest) = .ok (.srw, rest)
      ∧ decode (0x14 :: rest) = .ok (.lr0, rest) ∧ decode (0x15 :: rest) = .ok (.lrw, rest)
      ∧ decode (0x16 :: rest) = .ok (.taw, rest) ∧ decode (0x17 :: b1 :: rest) = .ok (.mr0 b1, rest)
      ∧ decode (0x18 :: b1 :: b2 :: rest) = .ok (.mrw b1 b2, rest) ∧ decode (0x19 :: rest) = .ok (.jz0, rest)
      ∧ decode (0x20 :: rest) = .ok (.jgw, rest) ∧ decode (0x21 :: rest) = .ok (.jew, rest)
      ∧ decode (0x22 :: b1 :: rest) = .ok (.or0 b1, rest) ∧ decode (0x23 :: b1 :: rest) = .ok (.an0 b1, rest)
      ∧ decode (0x24 :: b1 :: rest) = .ok (.je0 b1, rest) ∧ decode (0x25 :: rest) = .ok (.c01, rest)
      ∧ decode (0x26 :: rest) = .ok (.c02, rest) ∧ decode (0x27 :: rest) = .ok (.irw, rest)
      ∧ decode (0x28 :: rest) = .ok (.drw, rest) ∧ decode (0x29 :: rest) = .ok (.x03, rest)
      ∧ decode (0x2A :: rest) = .ok (.c03, rest) ∧ decode (0x2B :: rest) = .ok (.c30, rest)
      ∧ decode (0x2C :: rest) = .ok (.pl0, rest) ∧ decode (0x2D :: rest) = .ok (.pr0, rest)
      ∧ decode (0xFF :: rest) = .ok (.hlt, rest)

/-- 30_encoding R74: exactly the 221 bytes 0x0A..0x0F, 0x1A..0x1F and 0x2E..0xFE are unmapped, decoding rejects each by name, and each
raises UnknownOpcode when fetched as an opcode. -/
def Obligations.UnmappedOpcodesAreRejected : Prop :=
  (∀ op : Byte, slotOf op = none ↔
      (0x0A ≤ op.toNat ∧ op.toNat ≤ 0x0F) ∨ (0x1A ≤ op.toNat ∧ op.toNat ≤ 0x1F) ∨ (0x2E ≤ op.toNat ∧ op.toNat ≤ 0xFE))
    ∧ (∀ (op : Byte) (rest : List Byte), slotOf op = none → decode (op :: rest) = .error (.unmapped op))
    ∧ ((List.range 256).filter fun n => (slotOf (BitVec.ofNat 8 n)).isNone).length = 221
    ∧ ∀ s : State, slotOf (s.load s.ic) = none →
      cycleResult s = some (.unknownOpcode (s.load s.ic) s.ic) ∧ ∃ t, step s = .next t ∧ t.flt = ⟨true, s.load s.ic, s.ic⟩

/-- Decode and encode agree both ways (30_encoding R64, R72, R75): the bytes of every instruction decode to it, whatever follows,
and whatever decodes to an instruction begins with exactly its bytes. -/
def Obligations.DecodeAndEncodeAgree : Prop :=
  (∀ (i : Instr) (rest : List Byte), i.wf = true → decode (encode i ++ rest) = .ok (i, rest))
    ∧ ∀ (bs : List Byte) (i : Instr) (rest : List Byte), decode bs = .ok (i, rest) → bs = encode i ++ rest

/-- 30_encoding R76 with R68: what each line of the assembly notation stands for, for every operand in range, and that every
well-formed line stands for an instruction. -/
def Obligations.AssemblyNotationGivesBytes : Prop :=
  (∀ n : Nat, n < 0x10000 →
      (assemble ⟨0x01, [n]⟩).map encode = some [0x01, BitVec.ofNat 8 (n % 0x100), BitVec.ofNat 8 (n / 0x100)])
    ∧ (∀ n m : Nat, n < 0x100 → m < 0x100 →
      (assemble ⟨0x18, [n, m]⟩).map encode = some [0x18, BitVec.ofNat 8 n, BitVec.ofNat 8 m])
    ∧ (∀ n : Nat, n < 0x100 → ∀ op ∈ ([0x17, 0x22, 0x23, 0x24] : List Byte),
      (assemble ⟨op, [n]⟩).map encode = some [op, BitVec.ofNat 8 n])
    ∧ ∀ l : SourceLine, l.wf = true → ∃ i, assemble l = some i ∧ opcodeOf i = l.opcode

/-- A few words written out bit by bit from 30_encoding R71 and opcode_table.json decode to the instructions they stand for. -/
def Obligations.SampleWordsDecode : Prop :=
  decodeTableWord 24 0b000100100011010000000001 = some (.mar 0x34 0x12) ∧ decodeTableWord 8 0b00101000 = some .drw
    ∧ decodeTableWord 16 0b0000010100010111 = some (.mr0 0x05) ∧ decodeTableWord 8 0b00010011 = some .srw
    ∧ decodeTableWord 16 0b0001000000100100 = some (.je0 0x10) ∧ decodeTableWord 8 0b01010000 = none

/-! ### The Cycle -/

/-- 40_cycle R78 steps 1 to 4 and 20_memory R58 (1) to (3): what the opening of every Cycle writes, and that it writes nothing else. -/
def Obligations.CycleOpensWithFetchAndWatchdog : Prop :=
  ∀ s : State, beginCycle s = { s with curop := s.load s.ic, mem := (beginCycle s).mem }
    ∧ (beginCycle s).load 0x0010 = s.load 0x0010 + 1 ∧ (beginCycle s).load 0x0011 = s.load 0x0011 - 1
    ∧ ∀ a : Word, a ≠ 0x0010 → a ≠ 0x0011 → (beginCycle s).load a = s.load a

/-- A step runs the decoded instruction: the opcode as it stands before the watchdog update, the operand bytes as they stand after it
(40_cycle R78, R81), and around `exec` only the opening of the Cycle. -/
def Obligations.StepRunsTheDecodedInstruction : Prop :=
  ∀ (s : State) (i : Instr) (rest : List Byte),
    decode [s.load s.ic, (beginCycle s).load (s.ic + 1), (beginCycle s).load (s.ic + 2)] = .ok (i, rest) → i.wf = true →
      step s = exec i (beginCycle s)

/-- 60_exceptions R138: a Cycle that fetches an unmapped opcode. -/
def Obligations.UnknownOpcodeIsTaken : Prop :=
  ∀ s : State, mappedOpcode (s.load s.ic) = false →
    ∃ t, step s = .next t ∧ t.flt = ⟨true, s.load s.ic, s.ic⟩ ∧ t.curop = s.load s.ic
      ∧ t.ar = s.ar ∧ t.ic = s.ic ∧ t.r0 = s.r0 ∧ t.r1 = s.r1 ∧ t.r2 = s.r2 ∧ t.r3 = s.r3 ∧ t.hlt = s.hlt
      ∧ t.load 0x0010 = s.load 0x0010 + 1 ∧ t.load 0x0011 = s.load 0x0011 - 1
      ∧ (∀ a : Word, a ≠ 0x0010 → a ≠ 0x0011 → t.load a = s.load a)
      ∧ cycleResult s = some (.unknownOpcode (s.load s.ic) s.ic) ∧ mayCycle t = false

/-- 00_scope R8, 40_cycle R78, 60_exceptions R137 and R139: what the Cycle transaction answers. The reply is ok exactly for a mapped
opcode, and no transaction reports InvalidAddress. That a next state stands beside the reply for an unmapped opcode too is the model's
reading of the spec (log entry 4, DEDUCED from 60_exceptions R138 and 40_cycle R85), not what those rules say. -/
def Obligations.CycleTransactionReportsTheFault : Prop :=
  (∀ (p : Config.Params) (s : State), ∃ t, step s = .next t ∧ transact p .cycle s = .next (t, .cycle (cycleResult s)))
    ∧ (∀ s : State, cycleResult s = none ↔ mappedOpcode (s.load s.ic) = true)
    ∧ ∀ (p : Config.Params) (x : Txn) (s t : State) (r : Reply), transact p x s = .next (t, r) → replyCause r ≠ .invalidAddress

/-- 60_exceptions R136 and 42_alu R96: no instruction can itself fail, so every instruction ends in a next state. That a Cycle that
fetches an unmapped opcode ends in one as well, so that EVERY Cycle does, is the model's reading of the spec (log entry 4, DEDUCED from
60_exceptions R138 and 40_cycle R85). -/
def Obligations.EveryInstructionCompletes : Prop :=
  (∀ (i : Instr) (s : State), ∃ t, exec i s = .next t) ∧ ∀ s : State, ∃ t, step s = .next t

/-- 40_cycle R81: the opcode is fetched before the watchdog update, and every operand byte and every data read of the instruction comes
after it; a store overrides the updated value. At every address, 0x0010 and 0x0011 among them. -/
def Obligations.OnlyTheOpcodeIsFetchedBeforeTheWatchdog : Prop :=
  (∀ s : State, NextCycleRuns s (s.load s.ic) (afterWatchdog s (s.ic + 1)) (afterWatchdog s (s.ic + 2)))
    ∧ (∀ s : State, s.ic = 0x0010 → s.load 0x0010 = 0x05 → ∃ t, step s = .next t ∧ t.curop = 0x05 ∧ t.r0 = saturatingInc s.r0 ∧ t.load 0x0010 = 0x06)
    ∧ (∀ s : State, s.ic = 0x0011 → s.load 0x0011 = 0x05 → ∃ t, step s = .next t ∧ t.curop = 0x05 ∧ t.r0 = saturatingInc s.r0 ∧ t.load 0x0011 = 0x04)
    ∧ (∀ s : State, s.load s.ic = 0x01 → ∃ t, step s = .next t
      ∧ t.ar.toNat = (afterWatchdog s (s.ic + 2)).toNat * 0x100 + (afterWatchdog s (s.ic + 1)).toNat)
    ∧ (∀ s : State, s.load s.ic = 0x17 → ∃ t, step s = .next t ∧ t.r0 = afterWatchdog s (s.ic + 1))
    ∧ (∀ s : State, s.load s.ic = 0x18 → ∃ t, step s = .next t ∧ t.r1 = afterWatchdog s (s.ic + 1) ∧ t.r2 = afterWatchdog s (s.ic + 2))
    ∧ (∀ s : State, s.load s.ic = 0x22 → ∃ t, step s = .next t ∧ t.r0 = s.r0 ||| afterWatchdog s (s.ic + 1))
    ∧ (∀ s : State, s.load s.ic = 0x23 → ∃ t, step s = .next t ∧ t.r0 = s.r0 &&& afterWatchdog s (s.ic + 1))
    ∧ (∀ s : State, s.load s.ic = 0x24 → ∃ t, step s = .next t ∧ t.ic = if s.r0 = afterWatchdog s (s.ic + 1) then s.ar else s.ic + 2)
    ∧ (∀ s : State, s.load s.ic = 0x14 → ∃ t, step s = .next t ∧ t.r0 = afterWatchdog s s.ar)
    ∧ (∀ s : State, s.load s.ic = 0x15 → ∃ t, step s = .next t ∧ t.r1 = afterWatchdog s s.ar ∧ t.r2 = afterWatchdog s (s.ar + 1))
    ∧ (∀ s : State, s.load s.ic = 0x12 → ∃ t, step s = .next t ∧ t.load s.ar = s.r0 ∧ ∀ a : Word, a ≠ s.ar → t.load a = afterWatchdog s a)
    ∧ (∀ s : State, s.load s.ic = 0x13 → ∃ t, step s = .next t ∧ t.load s.ar = s.r1 ∧ t.load (s.ar + 1) = s.r2
      ∧ ∀ a : Word, a ≠ s.ar → a ≠ s.ar + 1 → t.load a = afterWatchdog s a)
    ∧ ∀ s : State, s.load s.ic = 0x02 → ∃ t, step s = .next t ∧ t.load s.ar = lowByte s.ic ∧ t.load (s.ar + 1) = highByte s.ic
      ∧ ∀ a : Word, a ≠ s.ar → a ≠ s.ar + 1 → t.load a = afterWatchdog s a

/-- 70_reset R161: a store of v to 0x0010 followed at once by LR0 from 0x0010 reads (v + 1) mod 256. -/
def Obligations.WatchdogReadsOneMoreThanStored : Prop :=
  ∀ s t : State, s.load s.ic = 0x12 → s.ar = 0x0010 → step s = .next t → t.load t.ic = 0x14 →
    ∃ u, step t = .next u ∧ u.r0.toNat = (s.r0.toNat + 1) % 256

/-- 40_cycle R80: after n Cycles with no program store to the watchdog bytes, from a state that holds 0 in both. -/
def Obligations.WatchdogBytesCountCycles : Prop :=
  ∀ (p : Config.Params) (n : Nat) (s : State), quiet n s = true → s.load 0x0010 = 0x00 → s.load 0x0011 = 0x00 →
    ∃ t rs, transactAll p (List.replicate n .cycle) s = .next (t, rs)
      ∧ (t.load 0x0010).toNat = n % 256 ∧ (t.load 0x0011).toNat = (256 - n % 256) % 256

/-- 20_memory R61, 70_reset R160: after every instruction's stores, and after a host write, the next Cycle fetches its opcode and operand
bytes from memory with those stores in it, runs the instruction they encode and faults on an unmapped one. The last seven clauses say
it of a store into the byte after the storing instruction, of one into the first operand of the next, and of a host write. -/
def Obligations.StoreIntoCodeIsSeenByTheNextFetch : Prop :=
  (∀ (s : State) (i : Instr), fetchInstr s = some i → ∃ t, step s = .next t
      ∧ (∀ a : Word, t.load a = (storedByte i (beginCycle s) a).getD (afterWatchdog s a))
      ∧ NextCycleRuns t (t.load t.ic) (afterWatchdog t (t.ic + 1)) (afterWatchdog t (t.ic + 2)))
    ∧ (∀ s : State, s.load s.ic = 0x12 → s.ar = s.ic + 1 → ∃ t, step s = .next t ∧ t.ic = s.ar
      ∧ NextCycleRuns t s.r0 (afterWatchdog t (t.ic + 1)) (afterWatchdog t (t.ic + 2)))
    ∧ (∀ s : State, s.load s.ic = 0x13 → s.ar = s.ic + 1 → ∃ t, step s = .next t ∧ t.ic = s.ar ∧ t.load (t.ic + 1) = s.r2
      ∧ NextCycleRuns t s.r1 (afterWatchdog t (t.ic + 1)) (afterWatchdog t (t.ic + 2)))
    ∧ (∀ s : State, s.load s.ic = 0x13 → s.ar = s.ic → ∃ t, step s = .next t ∧ t.ic = s.ar + 1
      ∧ NextCycleRuns t s.r2 (afterWatchdog t (t.ic + 1)) (afterWatchdog t (t.ic + 2)))
    ∧ (∀ s : State, s.load s.ic = 0x02 → s.ar = s.ic + 1 → ∃ t, step s = .next t ∧ t.ic = s.ar ∧ t.load (t.ic + 1) = highByte s.ic
      ∧ NextCycleRuns t (lowByte s.ic) (afterWatchdog t (t.ic + 1)) (afterWatchdog t (t.ic + 2)))
    ∧ (∀ s : State, s.load s.ic = 0x02 → s.ar = s.ic → ∃ t, step s = .next t ∧ t.ic = s.ar + 1
      ∧ NextCycleRuns t (highByte s.ic) (afterWatchdog t (t.ic + 1)) (afterWatchdog t (t.ic + 2)))
    ∧ (∀ s : State, s.load s.ic = 0x12 → s.ar = s.ic + 2 → ∃ t, step s = .next t ∧ t.load (t.ic + 1) = s.r0
      ∧ NextCycleRuns t (t.load t.ic) (afterWatchdog t (t.ic + 1)) (afterWatchdog t (t.ic + 2)))
    ∧ ∀ (p : Config.Params) (a : Word) (v : Byte) (s : State), ∃ t, transact p (.hostWrite a v) s = .next (t, .done)
      ∧ (∀ b : Word, t.load b = if b = a then v else s.load b)
      ∧ NextCycleRuns t (t.load t.ic) (afterWatchdog t (t.ic + 1)) (afterWatchdog t (t.ic + 2))

/-- Placing a word of the opcode table's numbering where the next Cycle fetches makes that Cycle run exactly the instruction the decoder
reads from it, wherever IC points, the watchdog bytes included (the model's own operation, log entry 5; it rests on 40_cycle R81). -/
def Obligations.PlacedWordIsRunByTheNextCycle : Prop :=
  ∀ (s : State) (nbits w : Nat) (i : Instr), decodeTableWord nbits w = some i →
    (s.withFetchWord nbits w).ic = s.ic
      ∧ step (s.withFetchWord nbits w) = exec i (beginCycle (s.withFetchWord nbits w))

/-! ### The whole instruction set -/

/-- 10_state R26: every instruction ends by writing IC with IC + len, or with AR for a taken jump. -/
def Obligations.IcIsAdvancedOrJumps : Prop :=
  ∀ (i : Instr) (s : State), ∃ t, exec i s = .next t
    ∧ (jumpTaken i s → t.ic = s.ar)
    ∧ (¬jumpTaken i s → t.ic.toNat = (s.ic.toNat + (encode i).length) % 0x10000)

/-- 10_state R23 ("written by"), R24, R28, R29, R30: which instructions may write R0..R3, AR and HLT, and that none writes CUROP or FLT. -/
def Obligations.OnlyTheListedInstructionsWrite : Prop :=
  ∀ (i : Instr) (s t : State), exec i s = .next t →
    (writesR0 i = false → t.r0 = s.r0) ∧ (writesR1 i = false → t.r1 = s.r1) ∧ (writesR2 i = false → t.r2 = s.r2)
      ∧ (writesR3 i = false → t.r3 = s.r3) ∧ (writesAr i = false → t.ar = s.ar)
      ∧ (i ≠ .hlt → t.hlt = s.hlt) ∧ t.curop = s.curop ∧ t.flt = s.flt

/-- 10_state R23 ("read by") and R24: an instruction not listed for a register does the same whatever that register holds. -/
def Obligations.OnlyTheListedInstructionsRead : Prop :=
  ∀ (i : Instr) (s : State) (v : Byte) (w : Word),
    (readsR0 i = false → exec i (s.setR0 v) = mapNext (fun t => if writesR0 i then t else t.setR0 v) (exec i s))
      ∧ (readsR1 i = false → exec i (s.setR1 v) = mapNext (fun t => if writesR1 i then t else t.setR1 v) (exec i s))
      ∧ (readsR2 i = false → exec i (s.setR2 v) = mapNext (fun t => if writesR2 i then t else t.setR2 v) (exec i s))
      ∧ (readsR3 i = false → exec i (s.setR3 v) = mapNext (fun t => if writesR3 i then t else t.setR3 v) (exec i s))
      ∧ (readsAr i = false → exec i (s.setAr w) = mapNext (fun t => if writesAr i then t else t.setAr w) (exec i s))

/-- 10_state R27: SIC is the only instruction that reads IC as data: for every other one, IC alone can depend on IC. -/
def Obligations.OnlySicReadsIcAsData : Prop :=
  ∀ (i : Instr) (s : State) (v : Word), i ≠ .sic →
    ∃ t u, exec i s = .next t ∧ exec i (s.setIc v) = .next u ∧ u = t.setIc u.ic

/-- 40_cycle R83, 10_state R28 to R30: neither the Cycle nor any instruction reads HLT, CUROP or FLT. -/
def Obligations.LatchesAreNeverRead : Prop :=
  (∀ (s : State) (b : Bool), step (s.setHlt b) = mapNext (fun t => if s.load s.ic = 0xFF then t else t.setHlt b) (step s))
    ∧ (∀ (s : State) (c : Byte), step (s.setCurop c) = step s)
    ∧ ∀ (s : State) (f : FaultLatch),
      step (s.setFlt f) = mapNext (fun t => if mappedOpcode (s.load s.ic) then t.setFlt f else t) (step s)

/-- 10_state R28 and R30, 40_cycle R85, 60_exceptions R144: what a Cycle does to the latches. HLT is set only by the opcode 0xFF and
never cleared; FLT.faulted is never cleared, and FLT changes only in a Cycle that raises UnknownOpcode. -/
def Obligations.CyclesOnlySetTheLatches : Prop :=
  ∀ s t : State, step s = .next t →
    t.hlt = (s.hlt || decide (s.load s.ic = 0xFF)) ∧ (s.flt.faulted = true → t.flt.faulted = true)
      ∧ (mappedOpcode (s.load s.ic) = true → t.flt = s.flt)

/-- 20_memory R41, column "writes": an instruction changes no byte of memory but those it stores to. -/
def Obligations.OnlyStoresChangeMemory : Prop :=
  ∀ (i : Instr) (s t : State), exec i s = .next t → ∀ a : Word, storesTo i s a = false → t.load a = s.load a

/-- 40_cycle R79: whatever the opcode, a Cycle moves the two watchdog bytes by one and changes no other byte, but for the bytes the
instruction stores to. -/
def Obligations.WatchdogUpdateInEveryCycle : Prop :=
  ∀ s t : State, step s = .next t → ∀ a : Word, (∀ i, fetchInstr s = some i → storesTo i (beginCycle s) a = false) →
    t.load a = if a = 0x0010 then s.load 0x0010 + 1 else if a = 0x0011 then s.load 0x0011 - 1 else s.load a

/-! ### Invariants -/

/-- Every Cycle keeps memory in its canonical form, from every state that has it. The canonical form is the model's own representation
of the 64 KiB of 20_memory R36 to R38 (log entry 12, DESIGN CHOICE), not a rule of the spec. -/
def Obligations.EveryStepKeepsTheMemoryForm : Prop :=
  ∀ s t : State, Inv s → step s = .next t → Inv t

/-- Every sequence of transactions, the host's among them, keeps memory in its canonical form, the model's own representation
(log entry 12, DESIGN CHOICE). -/
def Obligations.EveryTransactionKeepsTheMemoryForm : Prop :=
  ∀ (p : Config.Params) (xs : List Txn) (s t : State) (rs : List Reply), Inv s → transactAll p xs s = .next (t, rs) → Inv t

/-- The state after reset has the invariant, and is the power-on state with an empty BOOT_GLYPH and 0 for the values the spec leaves
unspecified (the model's choice, log entries 1 to 3); power-on has it with any glyph and any such values. The invariant is the
canonical form of memory, the model's own representation (log entry 12, DESIGN CHOICE). -/
def Obligations.ResetStateMeetsTheInvariant : Prop :=
  Inv State.reset ∧ State.reset = State.powerOn [] 0x00 0x00 0x0000
    ∧ ∀ (g : Config.Glyph) (c o : Byte) (i : Word), Inv (State.powerOn g c o i)

/-! ### Reset, clears and load -/

/-- 70_reset R152 with the power-on columns of 10_state R35 and 20_memory R56: registers, every byte of memory, and that it is the state
HardReset produces up to CUROP, FLT.op and FLT.ic, which are free. -/
def Obligations.PowerOnState : Prop :=
  (∀ (g : Config.Glyph) (c o : Byte) (i : Word),
      ResetRegisters (State.powerOn g c o i)
        ∧ (State.powerOn g c o i).curop = c ∧ (State.powerOn g c o i).flt.op = o ∧ (State.powerOn g c o i).flt.ic = i
        ∧ (∀ k : Fin 4096, (State.powerOn g c o i).load (0xE000 + BitVec.ofNat 16 k) = glyphByte g k 0x00)
        ∧ ∀ a : Word, ¬(0xE000 ≤ a.toNat ∧ a.toNat ≤ 0xEFFF) →
          (State.powerOn g c o i).load a = if 0x0100 ≤ a.toNat ∧ a.toNat ≤ 0xDFFF then 0xFF else 0x00)
    ∧ ∀ (p : Config.Params) (s : State), Inv s → hardReset p s = State.powerOn p.bootGlyph s.curop s.flt.op s.flt.ic

/-- 70_reset R153. -/
def Obligations.EngineResetRestoresRegistersAndWatchdogs : Prop :=
  ∀ (p : Config.Params) (s : State), ∃ t, transact p .engineReset s = .next (t, .done)
    ∧ ResetRegisters t ∧ SameInspection s t
    ∧ ∀ a : Word, t.load a = if a = 0x0010 ∨ a = 0x0011 then 0x00 else s.load a

/-- 70_reset R154. -/
def Obligations.SoftResetKeepsTheIoPage : Prop :=
  ∀ (p : Config.Params) (s : State), ∃ t, transact p .softReset s = .next (t, .done)
    ∧ ResetRegisters t ∧ SameInspection s t
    ∧ ∀ a : Word, t.load a =
      if a = 0x0010 ∨ a = 0x0011 then 0x00 else if a.toNat ≤ 0x00FF then s.load a else if a.toNat ≤ 0xDFFF then 0xFF else 0x00

/-- 70_reset R155. -/
def Obligations.HardResetWritesTheGlyphLast : Prop :=
  ∀ (p : Config.Params) (s : State), ∃ t, transact p .hardReset s = .next (t, .done)
    ∧ ResetRegisters t ∧ SameInspection s t
    ∧ (∀ k : Fin 4096, t.load (0xE000 + BitVec.ofNat 16 k) = glyphByte p.bootGlyph k 0x00)
    ∧ ∀ a : Word, ¬(0xE000 ≤ a.toNat ∧ a.toNat ≤ 0xEFFF) →
      t.load a = if 0x0100 ≤ a.toNat ∧ a.toNat ≤ 0xDFFF then 0xFF else 0x00

/-- 20_memory R52: the four clears, byte by byte, and that no clear touches a register. -/
def Obligations.ClearsFillTheirRegions : Prop :=
  ∀ (p : Config.Params) (s : State),
    (∃ t, transact p .clearVideo s = .next (t, .done) ∧ t = { s with mem := t.mem }
        ∧ ∀ a : Word, t.load a = if 0xE000 ≤ a.toNat then 0x00 else s.load a)
      ∧ (∃ t, transact p .clearRam s = .next (t, .done) ∧ t = { s with mem := t.mem }
        ∧ ∀ a : Word, t.load a = if 0x0100 ≤ a.toNat ∧ a.toNat ≤ 0xDFFF then 0xFF else s.load a)
      ∧ (∃ t, transact p .clearIo s = .next (t, .done) ∧ t = { s with mem := t.mem }
        ∧ ∀ a : Word, t.load a = if a.toNat ≤ 0x00FF then 0x00 else s.load a)
      ∧ ∃ t, transact p .clearAll s = .next (t, .done) ∧ t = { s with mem := t.mem }
        ∧ ∀ a : Word, t.load a = if 0x0100 ≤ a.toNat ∧ a.toNat ≤ 0xDFFF then 0xFF else 0x00

/-- 20_memory R53: a glyph writes its bytes in list order, only in the brightness plane, and no register. -/
def Obligations.GlyphWritesOnlyTheBrightnessPlane : Prop :=
  ∀ (p : Config.Params) (g : Config.Glyph) (s : State), ∃ t, transact p (.writeGlyph g) s = .next (t, .done)
    ∧ t = { s with mem := t.mem }
    ∧ (∀ k : Fin 4096, t.load (0xE000 + BitVec.ofNat 16 k) = glyphByte g k (s.load (0xE000 + BitVec.ofNat 16 k)))
    ∧ ∀ a : Word, ¬(0xE000 ≤ a.toNat ∧ a.toNat ≤ 0xEFFF) → t.load a = s.load a

/-- 70_reset R157: a load that succeeds copies the bytes verbatim from 0x0100 and changes nothing else; one that fails changes nothing. -/
def Obligations.LoadImageCopiesIntoRam : Prop :=
  (∀ (p : Config.Params) (bytes : List Byte) (s : State), bytes.length ≤ 0xDF00 →
      ∃ t, transact p (.loadImage (some bytes)) s = .next (t, .load .ok) ∧ t = { s with mem := t.mem }
        ∧ ∀ a : Word, t.load a = if 0x0100 ≤ a.toNat then (bytes[a.toNat - 0x0100]?).getD (s.load a) else s.load a)
    ∧ (∀ (p : Config.Params) (bytes : List Byte) (s : State), 0xDF00 < bytes.length →
      transact p (.loadImage (some bytes)) s = .next (s, .load .programLoadFailure))
    ∧ ∀ (p : Config.Params) (s : State), transact p (.loadImage none) s = .next (s, .load .programLoadFailure)

/-! ### The host -/

/-- 20_memory R54. -/
def Obligations.HostWriteStoresOneByte : Prop :=
  ∀ (p : Config.Params) (a : Word) (v : Byte) (s : State), ∃ t, transact p (.hostWrite a v) s = .next (t, .done)
    ∧ t = { s with mem := t.mem } ∧ t.load a = v ∧ ∀ b : Word, b ≠ a → t.load b = s.load b

/-- 20_memory R55, 10_state R34, 48_rasterizer R131 to R133: every reading transaction leaves the state as it was and answers from it. -/
def Obligations.ReadingTransactionsChangeNothing : Prop :=
  ∀ (p : Config.Params) (s : State),
    (∀ a, transact p (.hostRead a) s = .next (s, .byte (s.load a)))
      ∧ transact p .readRegs s = .next (s, .regs ⟨s.ar, s.ic, s.r0, s.r1, s.r2, s.r3, s.hlt, s.curop, s.flt⟩)
      ∧ transact p .render s = .next (s, .image (render s))
      ∧ transact p .shouldRedraw s = .next (s, .flag (decide (s.load 0x000A ≠ 0x00)))

/-- 10_state R34: "The only host actions that change registers are the resets". -/
def Obligations.OnlyResetsAndCyclesChangeRegisters : Prop :=
  ∀ (p : Config.Params) (x : Txn) (s t : State) (r : Reply), registerTxn x = false → transact p x s = .next (t, r) →
    t = { s with mem := t.mem }

/-- 60_exceptions R137: the cause codes, and which of them FLT and the replies carry. -/
def Obligations.CauseCodesOfTheErrors : Prop :=
  causeCode .none = 0 ∧ causeCode .unknownOpcode = 1 ∧ causeCode .invalidAddress = 2 ∧ causeCode .programLoadFailure = 3
    ∧ (∀ s : State, latchedCause s = .unknownOpcode ↔ s.flt.faulted = true)
    ∧ (∀ s : State, replyCause (.cycle (cycleResult s)) = .unknownOpcode ↔ mappedOpcode (s.load s.ic) = false)
    ∧ ∀ image, replyCause (.load (loadResult image)) = .programLoadFailure ↔
      (image = none ∨ ∃ bytes, image = some bytes ∧ 0xDF00 < bytes.length)

/-- 20_memory R45: the keyboard writes one of six values, each with at most one of bits 0 to 4 and none of bits 7 to 5, and its
transaction changes nothing but the byte at 0x0020. -/
def Obligations.KeyboardWritesSixValues : Prop :=
  (∀ k : Key, keyByte k ∈ ([0x00, 0x01, 0x02, 0x04, 0x08, 0x10] : List Byte))
    ∧ (keyByte .up = 0b00000001 ∧ keyByte .down = 0b00000010 ∧ keyByte .left = 0b00000100 ∧ keyByte .right = 0b00001000
      ∧ keyByte .action = 0b00010000 ∧ keyByte .noInput = 0x00)
    ∧ ∀ (p : Config.Params) (k : Key) (s : State), dutiful (keyWrite k) s = true
      ∧ ∃ t, transact p (keyWrite k) s = .next (t, .done) ∧ t = { s with mem := t.mem }
        ∧ t.load 0x0020 = keyByte k ∧ ∀ a : Word, a ≠ 0x0020 → t.load a = s.load a

/-- 40_cycle R84, R85: the driver issues no Cycle while HLT = 1 or FLT.faulted = 1. -/
def Obligations.DriverIssuesNoCycleWhenStopped : Prop :=
  (∀ s : State, mayCycle s = true ↔ s.hlt = false ∧ s.flt.faulted = false)
    ∧ (∀ (n : Nat) (d : Driven), mayCycle d.state = false → driverBurst n d = d)
    ∧ ∀ (p : Config.Params) (fuel : Nat) (d : Driven), mayCycle (driverRound p d).state = false →
      driverLoop p (fuel + 1) d = driverRound p d

/-- 48_rasterizer R134, 40_cycle R88: the driver's check renders the planes as they stand once, then clears the flag, and does neither
for a clear flag. -/
def Obligations.DriverServesARedrawOnce : Prop :=
  ∀ d : Driven,
    (d.state.load 0x000A ≠ 0x00 →
        (driverCheck d).frames = d.frames ++ [render d.state] ∧ (driverCheck d).keys = d.keys
          ∧ (driverCheck d).state = { d.state with mem := (driverCheck d).state.mem }
          ∧ (driverCheck d).state.load 0x000A = 0x00
          ∧ (∀ a : Word, a ≠ 0x000A → (driverCheck d).state.load a = d.state.load a)
          ∧ render (driverCheck d).state = render d.state)
      ∧ (d.state.load 0x000A = 0x00 → driverCheck d = d)

/-- 40_cycle R89: how one Cycle ends a run, from every start state, HLT already set or not, that no other transaction ends one, and
that only a halted end is successful. That a Cycle executing HLT with FLT.faulted = 1 from before the run leaves it running is the
model's choice (log entry 15). -/
def Obligations.RunEndsHaltedOrFaulted : Prop :=
  (∀ (p : Config.Params) (s : State), ∃ t, step s = .next t ∧ run p [.cycle] s = .next
      ⟨if mappedOpcode (s.load s.ic) = false then .faulted
        else if s.load s.ic = 0xFF ∧ s.flt.faulted = false then .halted else .running, t, 1⟩)
    ∧ (∀ (p : Config.Params) (x : Txn) (s t : State) (r : Reply), x ≠ .cycle → transact p x s = .next (t, r) →
      run p [x] s = .next ⟨.running, t, 1⟩)
    ∧ ∀ r : Run, successful r = true ↔ r.how = .halted

/-- 40_cycle R89: a run ends at the FIRST such boundary. A run that has not ended goes on as the rest of it does, one that has ended
stays so whatever the host issues afterwards, and a run stands halted, faulted or running exactly as the rule says. The condition
FLT.faulted = 0 at a halted end is read as the rule's parenthesis says it (log entry 15). -/
def Obligations.RunEndsAtItsFirstBoundary : Prop :=
  (∀ (p : Config.Params) (xs ys : List Txn) (s t : State) (n : Nat), run p xs s = .next ⟨.running, t, n⟩ →
      n = xs.length ∧ (∃ rs, transactAll p xs s = .next (t, rs))
        ∧ ∀ r, run p ys t = .next r → run p (xs ++ ys) s = .next ⟨r.how, r.state, xs.length + r.count⟩)
    ∧ (∀ (p : Config.Params) (xs ys : List Txn) (s : State) (r : Run), run p xs s = .next r → r.how ≠ .running →
      run p (xs ++ ys) s = .next r)
    ∧ (∀ (p : Config.Params) (xs : List Txn) (s t : State) (n : Nat), run p xs s = .next ⟨.halted, t, n⟩ ↔
      ∃ pre post u, xs = pre ++ .cycle :: post ∧ n = pre.length + 1 ∧ run p pre s = .next ⟨.running, u, pre.length⟩
        ∧ step u = .next t ∧ u.load u.ic = 0xFF ∧ t.hlt = true ∧ t.flt.faulted = false)
    ∧ (∀ (p : Config.Params) (xs : List Txn) (s t : State) (n : Nat), run p xs s = .next ⟨.faulted, t, n⟩ ↔
      ∃ pre post u, xs = pre ++ .cycle :: post ∧ n = pre.length + 1 ∧ run p pre s = .next ⟨.running, u, pre.length⟩
        ∧ step u = .next t ∧ mappedOpcode (u.load u.ic) = false ∧ t.flt.faulted = true)
    ∧ ∀ (p : Config.Params) (host : Nat → Txn) (s : State), runsForever p host s →
      ∀ (n : Nat) (r : Run), run p ((List.range n).map host) s = .next r → successful r = false

/-! ### Rasterizer -/

/-- 48_rasterizer R128 to R131: Pixel(i) answers the code 2*bright + color for 0 <= i < 4096, only zero against non-zero counting, writes
nothing, and is refused outside; the truth table's colours and codes; the index of (x, y). -/
def Obligations.PixelCodeIsTwoBrightPlusColor : Prop :=
  (∀ (p : Config.Params) (s : State) (i : Fin 4096), ∃ c, transact p (.pixel i.val) s = .next (s, .colour c) ∧ c.toNat =
      2 * (if s.load (0xE000 + BitVec.ofNat 16 i) = 0x00 then 0 else 1) + (if s.load (0xF000 + BitVec.ofNat 16 i) = 0x00 then 0 else 1))
    ∧ (∀ (p : Config.Params) (s : State) (i : Nat), 4096 ≤ i → transact p (.pixel i) s = .refused (.pixelIndexOutOfRange i))
    ∧ (colourOf true true = .yellow ∧ colourOf true false = .white ∧ colourOf false true = .blue ∧ colourOf false false = .black)
    ∧ (colourCode .yellow = 3 ∧ colourCode .white = 2 ∧ colourCode .blue = 1 ∧ colourCode .black = 0)
    ∧ ∀ x y : Fin 64, (pixelIndex x y).val = y.val * 64 + x.val ∧ (pixelIndex x y).val % 64 = x.val ∧ (pixelIndex x y).val / 64 = y.val

/-- 48_rasterizer R132: Render gives the 4096 codes in order, writes nothing, and depends on nothing but the two planes. -/
def Obligations.RenderIsAFunctionOfThePlanes : Prop :=
  (∀ (p : Config.Params) (s : State), transact p .render s = .next (s, .image (render s)))
    ∧ (∀ s : State, (render s).length = 4096 ∧ ∀ i : Fin 4096, (render s)[i.val]? = some (colourCode (pixelColour s i)))
    ∧ ∀ s t : State, (∀ a : Word, 0xE000 ≤ a.toNat → s.load a = t.load a) → render s = render t

/-- 48_rasterizer R133 and R134: the flag, and the stores by which a program requests a redraw. -/
def Obligations.StoresToDrawRequestARedraw : Prop :=
  (∀ s : State, shouldRedraw s = true ↔ s.load 0x000A ≠ 0x00)
    ∧ (∀ s : State, s.ar = 0x000A → ∃ t, exec .sr0 s = .next t ∧ (shouldRedraw t = true ↔ s.r0 ≠ 0x00))
    ∧ (∀ s : State, s.ar = 0x000A → ∃ t, exec .srw s = .next t ∧ (shouldRedraw t = true ↔ s.r1 ≠ 0x00))
    ∧ (∀ s : State, s.ar = 0x000A → ∃ t, exec .sic s = .next t ∧ (shouldRedraw t = true ↔ s.ic.toNat % 0x100 ≠ 0))
    ∧ (∀ s : State, s.ar = 0x0009 → ∃ t, exec .srw s = .next t ∧ (shouldRedraw t = true ↔ s.r2 ≠ 0x00))
    ∧ ∀ s : State, s.ar = 0x0009 → ∃ t, exec .sic s = .next t ∧ (shouldRedraw t = true ↔ s.ic.toNat / 0x100 ≠ 0)

/-! ### Results: no-op and address register -/

/-- 41_address R90 and 45_control R127: NUL changes nothing but IC, HLT sets the halt latch too, and IC still advances. -/
def Obligations.NulAndHltAdvance : Prop :=
  ∀ s : State, exec .nul s = .next { s with ic := s.ic + 1 } ∧ exec .hlt s = .next { s with hlt := true, ic := s.ic + 1 }

/-- 41_address R91 and R94: MAR, its operand bytes as the Cycle reads them, and AAR, which adds R0 unsigned and discards the carry. -/
def Obligations.MarAndAarSetAr : Prop :=
  (∀ (s : State) (b1 b2 : Byte),
      exec (.mar b1 b2) s = .next { s with ar := BitVec.ofNat 16 (b2.toNat * 0x100 + b1.toNat), ic := s.ic + 3 })
    ∧ (∀ s : State, s.load s.ic = 0x01 →
      step s = exec (.mar ((beginCycle s).load (s.ic + 1)) ((beginCycle s).load (s.ic + 2))) (beginCycle s))
    ∧ ∀ s : State, ∃ t, exec .aar s = .next t ∧ t = { s with ar := t.ar, ic := s.ic + 1 }
      ∧ t.ar.toNat = (s.ar.toNat + s.r0.toNat) % 0x10000

/-- 41_address R92: SIC stores its own address, low byte at AR, high byte at AR + 1 modulo 0x10000. -/
def Obligations.SicStoresItsOwnAddress : Prop :=
  ∀ s : State, ∃ t, exec .sic s = .next t ∧ t = { s with ic := s.ic + 1, mem := t.mem }
    ∧ (t.load (effectiveAddress s)).toNat = s.ic.toNat % 0x100
    ∧ (t.load (nextAddress (effectiveAddress s))).toNat = s.ic.toNat / 0x100
    ∧ ∀ a : Word, a ≠ effectiveAddress s → a ≠ nextAddress (effectiveAddress s) → t.load a = s.load a

/-- 41_address R93 and R95: RAR and TAW, and that TAW then RAR leaves AR unchanged. -/
def Obligations.RarAndTawAreInverse : Prop :=
  ∀ s : State,
    exec .rar s = .next { s with ar := BitVec.ofNat 16 (s.r2.toNat * 0x100 + s.r1.toNat), ic := s.ic + 1 }
      ∧ (∃ t, exec .taw s = .next t ∧ t = { s with r1 := t.r1, r2 := t.r2, ic := s.ic + 1 }
        ∧ t.r1.toNat = s.ar.toNat % 0x100 ∧ t.r2.toNat = s.ar.toNat / 0x100
        ∧ ∃ u, exec .rar t = .next u ∧ u.ar = s.ar)

/-! ### Results: arithmetic and logic -/

/-- 42_alu R97, R99, R105 and R106: IR0 and DR0 saturate, PL0 and PR0 shift within 8 bits. -/
def Obligations.R0ArithmeticStaysInEightBits : Prop :=
  ∀ s : State,
    (∃ t, exec .ir0 s = .next t ∧ t = { s with r0 := t.r0, ic := s.ic + 1 } ∧ t.r0.toNat = min (s.r0.toNat + 1) 0xFF)
      ∧ (∃ t, exec .dr0 s = .next t ∧ t = { s with r0 := t.r0, ic := s.ic + 1 } ∧ (t.r0.toNat : Int) = max ((s.r0.toNat : Int) - 1) 0)
      ∧ (∃ t, exec .pl0 s = .next t ∧ t = { s with r0 := t.r0, ic := s.ic + 1 } ∧ t.r0 = s.r0 <<< 1 ∧ t.r0.toNat = s.r0.toNat * 2 % 0x100)
      ∧ ∃ t, exec .pr0 s = .next t ∧ t = { s with r0 := t.r0, ic := s.ic + 1 } ∧ t.r0 = s.r0 >>> 1 ∧ t.r0.toNat = s.r0.toNat / 2

/-- 42_alu R98: A01 by its paths, and as the saturating addition on the pair that the rule says it equals. -/
def Obligations.A01AddsIntoThePairWithSaturation : Prop :=
  ∀ s : State, ∃ t, exec .a01 s = .next t ∧ t = { s with r1 := t.r1, r2 := t.r2, ic := s.ic + 1 }
    ∧ (t.r1.toNat, t.r2.toNat) =
      (if s.r1.toNat + s.r0.toNat > 0xFF then
        if s.r2.toNat = 0xFF then (0xFF, 0xFF) else (s.r1.toNat + s.r0.toNat - 0x100, s.r2.toNat + 1)
      else (s.r1.toNat + s.r0.toNat, s.r2.toNat))
    ∧ t.r2.toNat * 0x100 + t.r1.toNat = min (s.r2.toNat * 0x100 + s.r1.toNat + s.r0.toNat) 0xFFFF

/-- 42_alu R100: S01 by its paths; a borrow leaves the absolute difference. -/
def Obligations.S01LeavesTheAbsoluteDifference : Prop :=
  ∀ s : State, ∃ t, exec .s01 s = .next t ∧ t = { s with r1 := t.r1, r2 := t.r2, ic := s.ic + 1 }
    ∧ (t.r1.toNat, t.r2.toNat) =
      (if s.r1.toNat < s.r0.toNat then
        if s.r2.toNat = 0 then (0, 0) else (s.r0.toNat - s.r1.toNat, s.r2.toNat - 1)
      else (s.r1.toNat - s.r0.toNat, s.r2.toNat))

/-- 42_alu R101 and R102: OR0 and AN0, their operand byte as the Cycle reads it. -/
def Obligations.LogicCombinesTheImmediate : Prop :=
  (∀ (s : State) (b1 : Byte),
      exec (.or0 b1) s = .next { s with r0 := s.r0 ||| b1, ic := s.ic + 2 }
        ∧ exec (.an0 b1) s = .next { s with r0 := s.r0 &&& b1, ic := s.ic + 2 })
    ∧ (∀ s : State, s.load s.ic = 0x22 → step s = exec (.or0 ((beginCycle s).load (s.ic + 1))) (beginCycle s))
    ∧ ∀ s : State, s.load s.ic = 0x23 → step s = exec (.an0 ((beginCycle s).load (s.ic + 1))) (beginCycle s)

/-- 42_alu R103 and R104: IRW leaves R1 at 0xFF when it carries, and DRW leaves 0x01 in R1 when it borrows and clamps at 0. -/
def Obligations.IrwSticksAndDrwBorrowsToOne : Prop :=
  ∀ s : State,
    (∃ t, exec .irw s = .next t ∧ t = { s with r1 := t.r1, r2 := t.r2, ic := s.ic + 1 }
      ∧ (t.r1.toNat, t.r2.toNat) =
        if s.r1.toNat + 1 > 0xFF then (0xFF, min (s.r2.toNat + 1) 0xFF) else (s.r1.toNat + 1, s.r2.toNat))
      ∧ ∃ t, exec .drw s = .next t ∧ t = { s with r1 := t.r1, r2 := t.r2, ic := s.ic + 1 }
      ∧ (t.r1.toNat, t.r2.toNat) =
        if s.r1.toNat = 0 then if s.r2.toNat = 0 then (0, 0) else (1, s.r2.toNat - 1) else (s.r1.toNat - 1, s.r2.toNat)

/-! ### Results: moves -/

/-- 43_move R107, R108, R111 to R115: the swaps exchange their registers, the copies keep their source. -/
def Obligations.SwapsAndCopiesMoveRegisters : Prop :=
  ∀ s : State,
    exec .x12 s = .next { s with r1 := s.r2, r2 := s.r1, ic := s.ic + 1 }
      ∧ exec .x01 s = .next { s with r0 := s.r1, r1 := s.r0, ic := s.ic + 1 }
      ∧ exec .x03 s = .next { s with r0 := s.r3, r3 := s.r0, ic := s.ic + 1 }
      ∧ exec .c01 s = .next { s with r1 := s.r0, ic := s.ic + 1 } ∧ exec .c02 s = .next { s with r2 := s.r0, ic := s.ic + 1 }
      ∧ exec .c03 s = .next { s with r3 := s.r0, ic := s.ic + 1 } ∧ exec .c30 s = .next { s with r0 := s.r3, ic := s.ic + 1 }

/-- 43_move R109 and R110: MR0 and MRW, their operand bytes as the Cycle reads them. -/
def Obligations.ImmediateLoadsTakeTheBytesInOrder : Prop :=
  (∀ (s : State) (b1 b2 : Byte),
      exec (.mr0 b1) s = .next { s with r0 := b1, ic := s.ic + 2 }
        ∧ exec (.mrw b1 b2) s = .next { s with r1 := b1, r2 := b2, ic := s.ic + 3 })
    ∧ (∀ s : State, s.load s.ic = 0x17 → step s = exec (.mr0 ((beginCycle s).load (s.ic + 1))) (beginCycle s))
    ∧ ∀ s : State, s.load s.ic = 0x18 →
      step s = exec (.mrw ((beginCycle s).load (s.ic + 1)) ((beginCycle s).load (s.ic + 2))) (beginCycle s)

/-! ### Results: load and store -/

/-- 44_load_store R117 and R118: SR0 and SRW. -/
def Obligations.StoresWriteAtAr : Prop :=
  ∀ s : State,
    (∃ t, exec .sr0 s = .next t ∧ t = { s with ic := s.ic + 1, mem := t.mem } ∧ t.load (effectiveAddress s) = s.r0
        ∧ ∀ a : Word, a ≠ effectiveAddress s → t.load a = s.load a)
      ∧ ∃ t, exec .srw s = .next t ∧ t = { s with ic := s.ic + 1, mem := t.mem } ∧ t.load (effectiveAddress s) = s.r1
        ∧ t.load (nextAddress (effectiveAddress s)) = s.r2
        ∧ ∀ a : Word, a ≠ effectiveAddress s → a ≠ nextAddress (effectiveAddress s) → t.load a = s.load a

/-- 44_load_store R119 and R120: LR0 and LRW. -/
def Obligations.LoadsReadAtAr : Prop :=
  ∀ s : State,
    exec .lr0 s = .next { s with r0 := s.load s.ar, ic := s.ic + 1 }
      ∧ exec .lrw s = .next { s with r1 := s.load s.ar, r2 := s.load (s.ar + 1), ic := s.ic + 1 }

/-- 20_memory R46, 44_load_store R120: LRW reads back what SRW or SIC stored at the same AR, at every AR, 0xFFFF too. -/
def Obligations.LrwReadsBackSicAndSrw : Prop :=
  ∀ s : State,
    (∃ t u, exec .sic s = .next t ∧ exec .lrw t = .next u ∧ u.r2.toNat * 0x100 + u.r1.toNat = s.ic.toNat)
      ∧ ∃ t u, exec .srw s = .next t ∧ exec .lrw t = .next u ∧ u.r1 = s.r1 ∧ u.r2 = s.r2

/-! ### Results: control -/

/-- 45_control R122 to R126: the jumps, and JE0's operand byte as the Cycle reads it. -/
def Obligations.JumpsGoToAr : Prop :=
  (∀ (s : State) (b1 : Byte),
    exec .jmp s = .next { s with ic := s.ar }
      ∧ exec .jz0 s = .next { s with ic := if s.r0 = 0x00 then s.ar else s.ic + 1 }
      ∧ exec .jgw s = .next { s with ic := if s.r1.toNat > s.r2.toNat then s.ar else s.ic + 1 }
      ∧ exec .jew s = .next { s with ic := if s.r1 = s.r2 then s.ar else s.ic + 1 }
      ∧ exec (.je0 b1) s = .next { s with ic := if s.r0 = b1 then s.ar else s.ic + 2 })
    ∧ ∀ s : State, s.load s.ic = 0x24 → step s = exec (.je0 ((beginCycle s).load (s.ic + 1))) (beginCycle s)
end

