-- ==== Sys2Proof/Laws/State.lean ====
section
/-! SUPPORT. One lemma per field per update of State, so that no proof unfolds a record update. -/

namespace Sys2Proof.Machine

variable (s : State)

/-! `setAr` -/

@[simp] theorem State.setAr_ar (v : Word) : (s.setAr v).ar = v := rfl
@[simp] theorem State.setAr_ic (v : Word) : (s.setAr v).ic = s.ic := rfl
@[simp] theorem State.setAr_r0 (v : Word) : (s.setAr v).r0 = s.r0 := rfl
@[simp] theorem State.setAr_r1 (v : Word) : (s.setAr v).r1 = s.r1 := rfl
@[simp] theorem State.setAr_r2 (v : Word) : (s.setAr v).r2 = s.r2 := rfl
@[simp] theorem State.setAr_r3 (v : Word) : (s.setAr v).r3 = s.r3 := rfl
@[simp] theorem State.setAr_hlt (v : Word) : (s.setAr v).hlt = s.hlt := rfl
@[simp] theorem State.setAr_curop (v : Word) : (s.setAr v).curop = s.curop := rfl
@[simp] theorem State.setAr_flt (v : Word) : (s.setAr v).flt = s.flt := rfl
@[simp] theorem State.setAr_mem (v : Word) : (s.setAr v).mem = s.mem := rfl

/-! `setIc` -/

@[simp] theorem State.setIc_ar (v : Word) : (s.setIc v).ar = s.ar := rfl
@[simp] theorem State.setIc_ic (v : Word) : (s.setIc v).ic = v := rfl
@[simp] theorem State.setIc_r0 (v : Word) : (s.setIc v).r0 = s.r0 := rfl
@[simp] theorem State.setIc_r1 (v : Word) : (s.setIc v).r1 = s.r1 := rfl
@[simp] theorem State.setIc_r2 (v : Word) : (s.setIc v).r2 = s.r2 := rfl
@[simp] theorem State.setIc_r3 (v : Word) : (s.setIc v).r3 = s.r3 := rfl
@[simp] theorem State.setIc_hlt (v : Word) : (s.setIc v).hlt = s.hlt := rfl
@[simp] theorem State.setIc_curop (v : Word) : (s.setIc v).curop = s.curop := rfl
@[simp] theorem State.setIc_flt (v : Word) : (s.setIc v).flt = s.flt := rfl
@[simp] theorem State.setIc_mem (v : Word) : (s.setIc v).mem = s.mem := rfl

/-! `setR0` -/

@[simp] theorem State.setR0_ar (v : Byte) : (s.setR0 v).ar = s.ar := rfl
@[simp] theorem State.setR0_ic (v : Byte) : (s.setR0 v).ic = s.ic := rfl
@[simp] theorem State.setR0_r0 (v : Byte) : (s.setR0 v).r0 = v := rfl
@[simp] theorem State.setR0_r1 (v : Byte) : (s.setR0 v).r1 = s.r1 := rfl
@[simp] theorem State.setR0_r2 (v : Byte) : (s.setR0 v).r2 = s.r2 := rfl
@[simp] theorem State.setR0_r3 (v : Byte) : (s.setR0 v).r3 = s.r3 := rfl
@[simp] theorem State.setR0_hlt (v : Byte) : (s.setR0 v).hlt = s.hlt := rfl
@[simp] theorem State.setR0_curop (v : Byte) : (s.setR0 v).curop = s.curop := rfl
@[simp] theorem State.setR0_flt (v : Byte) : (s.setR0 v).flt = s.flt := rfl
@[simp] theorem State.setR0_mem (v : Byte) : (s.setR0 v).mem = s.mem := rfl

/-! `setR1` -/

@[simp] theorem State.setR1_ar (v : Byte) : (s.setR1 v).ar = s.ar := rfl
@[simp] theorem State.setR1_ic (v : Byte) : (s.setR1 v).ic = s.ic := rfl
@[simp] theorem State.setR1_r0 (v : Byte) : (s.setR1 v).r0 = s.r0 := rfl
@[simp] theorem State.setR1_r1 (v : Byte) : (s.setR1 v).r1 = v := rfl
@[simp] theorem State.setR1_r2 (v : Byte) : (s.setR1 v).r2 = s.r2 := rfl
@[simp] theorem State.setR1_r3 (v : Byte) : (s.setR1 v).r3 = s.r3 := rfl
@[simp] theorem State.setR1_hlt (v : Byte) : (s.setR1 v).hlt = s.hlt := rfl
@[simp] theorem State.setR1_curop (v : Byte) : (s.setR1 v).curop = s.curop := rfl
@[simp] theorem State.setR1_flt (v : Byte) : (s.setR1 v).flt = s.flt := rfl
@[simp] theorem State.setR1_mem (v : Byte) : (s.setR1 v).mem = s.mem := rfl

/-! `setR2` -/

@[simp] theorem State.setR2_ar (v : Byte) : (s.setR2 v).ar = s.ar := rfl
@[simp] theorem State.setR2_ic (v : Byte) : (s.setR2 v).ic = s.ic := rfl
@[simp] theorem State.setR2_r0 (v : Byte) : (s.setR2 v).r0 = s.r0 := rfl
@[simp] theorem State.setR2_r1 (v : Byte) : (s.setR2 v).r1 = s.r1 := rfl
@[simp] theorem State.setR2_r2 (v : Byte) : (s.setR2 v).r2 = v := rfl
@[simp] theorem State.setR2_r3 (v : Byte) : (s.setR2 v).r3 = s.r3 := rfl
@[simp] theorem State.setR2_hlt (v : Byte) : (s.setR2 v).hlt = s.hlt := rfl
@[simp] theorem State.setR2_curop (v : Byte) : (s.setR2 v).curop = s.curop := rfl
@[simp] theorem State.setR2_flt (v : Byte) : (s.setR2 v).flt = s.flt := rfl
@[simp] theorem State.setR2_mem (v : Byte) : (s.setR2 v).mem = s.mem := rfl

/-! `setR3` -/

@[simp] theorem State.setR3_ar (v : Byte) : (s.setR3 v).ar = s.ar := rfl
@[simp] theorem State.setR3_ic (v : Byte) : (s.setR3 v).ic = s.ic := rfl
@[simp] theorem State.setR3_r0 (v : Byte) : (s.setR3 v).r0 = s.r0 := rfl
@[simp] theorem State.setR3_r1 (v : Byte) : (s.setR3 v).r1 = s.r1 := rfl
@[simp] theorem State.setR3_r2 (v : Byte) : (s.setR3 v).r2 = s.r2 := rfl
@[simp] theorem State.setR3_r3 (v : Byte) : (s.setR3 v).r3 = v := rfl
@[simp] theorem State.setR3_hlt (v : Byte) : (s.setR3 v).hlt = s.hlt := rfl
@[simp] theorem State.setR3_curop (v : Byte) : (s.setR3 v).curop = s.curop := rfl
@[simp] theorem State.setR3_flt (v : Byte) : (s.setR3 v).flt = s.flt := rfl
@[simp] theorem State.setR3_mem (v : Byte) : (s.setR3 v).mem = s.mem := rfl

/-! `setHlt` -/

@[simp] theorem State.setHlt_ar (v : Bool) : (s.setHlt v).ar = s.ar := rfl
@[simp] theorem State.setHlt_ic (v : Bool) : (s.setHlt v).ic = s.ic := rfl
@[simp] theorem State.setHlt_r0 (v : Bool) : (s.setHlt v).r0 = s.r0 := rfl
@[simp] theorem State.setHlt_r1 (v : Bool) : (s.setHlt v).r1 = s.r1 := rfl
@[simp] theorem State.setHlt_r2 (v : Bool) : (s.setHlt v).r2 = s.r2 := rfl
@[simp] theorem State.setHlt_r3 (v : Bool) : (s.setHlt v).r3 = s.r3 := rfl
@[simp] theorem State.setHlt_hlt (v : Bool) : (s.setHlt v).hlt = v := rfl
@[simp] theorem State.setHlt_curop (v : Bool) : (s.setHlt v).curop = s.curop := rfl
@[simp] theorem State.setHlt_flt (v : Bool) : (s.setHlt v).flt = s.flt := rfl
@[simp] theorem State.setHlt_mem (v : Bool) : (s.setHlt v).mem = s.mem := rfl

/-! `setCurop` -/

@[simp] theorem State.setCurop_ar (v : Byte) : (s.setCurop v).ar = s.ar := rfl
@[simp] theorem State.setCurop_ic (v : Byte) : (s.setCurop v).ic = s.ic := rfl
@[simp] theorem State.setCurop_r0 (v : Byte) : (s.setCurop v).r0 = s.r0 := rfl
@[simp] theorem State.setCurop_r1 (v : Byte) : (s.setCurop v).r1 = s.r1 := rfl
@[simp] theorem State.setCurop_r2 (v : Byte) : (s.setCurop v).r2 = s.r2 := rfl
@[simp] theorem State.setCurop_r3 (v : Byte) : (s.setCurop v).r3 = s.r3 := rfl
@[simp] theorem State.setCurop_hlt (v : Byte) : (s.setCurop v).hlt = s.hlt := rfl
@[simp] theorem State.setCurop_curop (v : Byte) : (s.setCurop v).curop = v := rfl
@[simp] theorem State.setCurop_flt (v : Byte) : (s.setCurop v).flt = s.flt := rfl
@[simp] theorem State.setCurop_mem (v : Byte) : (s.setCurop v).mem = s.mem := rfl

/-! `setFlt` -/

@[simp] theorem State.setFlt_ar (v : FaultLatch) : (s.setFlt v).ar = s.ar := rfl
@[simp] theorem State.setFlt_ic (v : FaultLatch) : (s.setFlt v).ic = s.ic := rfl
@[simp] theorem State.setFlt_r0 (v : FaultLatch) : (s.setFlt v).r0 = s.r0 := rfl
@[simp] theorem State.setFlt_r1 (v : FaultLatch) : (s.setFlt v).r1 = s.r1 := rfl
@[simp] theorem State.setFlt_r2 (v : FaultLatch) : (s.setFlt v).r2 = s.r2 := rfl
@[simp] theorem State.setFlt_r3 (v : FaultLatch) : (s.setFlt v).r3 = s.r3 := rfl
@[simp] theorem State.setFlt_hlt (v : FaultLatch) : (s.setFlt v).hlt = s.hlt := rfl
@[simp] theorem State.setFlt_curop (v : FaultLatch) : (s.setFlt v).curop = s.curop := rfl
@[simp] theorem State.setFlt_flt (v : FaultLatch) : (s.setFlt v).flt = v := rfl
@[simp] theorem State.setFlt_mem (v : FaultLatch) : (s.setFlt v).mem = s.mem := rfl

/-! `setMem` -/

@[simp] theorem State.setMem_ar (v : Memory) : (s.setMem v).ar = s.ar := rfl
@[simp] theorem State.setMem_ic (v : Memory) : (s.setMem v).ic = s.ic := rfl
@[simp] theorem State.setMem_r0 (v : Memory) : (s.setMem v).r0 = s.r0 := rfl
@[simp] theorem State.setMem_r1 (v : Memory) : (s.setMem v).r1 = s.r1 := rfl
@[simp] theorem State.setMem_r2 (v : Memory) : (s.setMem v).r2 = s.r2 := rfl
@[simp] theorem State.setMem_r3 (v : Memory) : (s.setMem v).r3 = s.r3 := rfl
@[simp] theorem State.setMem_hlt (v : Memory) : (s.setMem v).hlt = s.hlt := rfl
@[simp] theorem State.setMem_curop (v : Memory) : (s.setMem v).curop = s.curop := rfl
@[simp] theorem State.setMem_flt (v : Memory) : (s.setMem v).flt = s.flt := rfl
@[simp] theorem State.setMem_mem (v : Memory) : (s.setMem v).mem = v := rfl

/-! `store` -/

@[simp] theorem State.store_ar (a : Word) (v : Byte) : (s.store a v).ar = s.ar := rfl
@[simp] theorem State.store_ic (a : Word) (v : Byte) : (s.store a v).ic = s.ic := rfl
@[simp] theorem State.store_r0 (a : Word) (v : Byte) : (s.store a v).r0 = s.r0 := rfl
@[simp] theorem State.store_r1 (a : Word) (v : Byte) : (s.store a v).r1 = s.r1 := rfl
@[simp] theorem State.store_r2 (a : Word) (v : Byte) : (s.store a v).r2 = s.r2 := rfl
@[simp] theorem State.store_r3 (a : Word) (v : Byte) : (s.store a v).r3 = s.r3 := rfl
@[simp] theorem State.store_hlt (a : Word) (v : Byte) : (s.store a v).hlt = s.hlt := rfl
@[simp] theorem State.store_curop (a : Word) (v : Byte) : (s.store a v).curop = s.curop := rfl
@[simp] theorem State.store_flt (a : Word) (v : Byte) : (s.store a v).flt = s.flt := rfl
@[simp] theorem State.store_mem (a : Word) (v : Byte) : (s.store a v).mem = memWrite s.mem a v := rfl

/-! `storePair` -/

@[simp] theorem State.storePair_ar (a : Word) (lo hi : Byte) : (s.storePair a lo hi).ar = s.ar := rfl
@[simp] theorem State.storePair_ic (a : Word) (lo hi : Byte) : (s.storePair a lo hi).ic = s.ic := rfl
@[simp] theorem State.storePair_r0 (a : Word) (lo hi : Byte) : (s.storePair a lo hi).r0 = s.r0 := rfl
@[simp] theorem State.storePair_r1 (a : Word) (lo hi : Byte) : (s.storePair a lo hi).r1 = s.r1 := rfl
@[simp] theorem State.storePair_r2 (a : Word) (lo hi : Byte) : (s.storePair a lo hi).r2 = s.r2 := rfl
@[simp] theorem State.storePair_r3 (a : Word) (lo hi : Byte) : (s.storePair a lo hi).r3 = s.r3 := rfl
@[simp] theorem State.storePair_hlt (a : Word) (lo hi : Byte) : (s.storePair a lo hi).hlt = s.hlt := rfl
@[simp] theorem State.storePair_curop (a : Word) (lo hi : Byte) : (s.storePair a lo hi).curop = s.curop := rfl
@[simp] theorem State.storePair_flt (a : Word) (lo hi : Byte) : (s.storePair a lo hi).flt = s.flt := rfl
@[simp] theorem State.storePair_mem (a : Word) (lo hi : Byte) : (s.storePair a lo hi).mem = memWrite (memWrite s.mem a lo) (nextAddress a) hi := rfl

/-! `setPair` -/

@[simp] theorem State.setPair_ar (lo hi : Byte) : (s.setPair lo hi).ar = s.ar := rfl
@[simp] theorem State.setPair_ic (lo hi : Byte) : (s.setPair lo hi).ic = s.ic := rfl
@[simp] theorem State.setPair_r0 (lo hi : Byte) : (s.setPair lo hi).r0 = s.r0 := rfl
@[simp] theorem State.setPair_r1 (lo hi : Byte) : (s.setPair lo hi).r1 = lo := rfl
@[simp] theorem State.setPair_r2 (lo hi : Byte) : (s.setPair lo hi).r2 = hi := rfl
@[simp] theorem State.setPair_r3 (lo hi : Byte) : (s.setPair lo hi).r3 = s.r3 := rfl
@[simp] theorem State.setPair_hlt (lo hi : Byte) : (s.setPair lo hi).hlt = s.hlt := rfl
@[simp] theorem State.setPair_curop (lo hi : Byte) : (s.setPair lo hi).curop = s.curop := rfl
@[simp] theorem State.setPair_flt (lo hi : Byte) : (s.setPair lo hi).flt = s.flt := rfl
@[simp] theorem State.setPair_mem (lo hi : Byte) : (s.setPair lo hi).mem = s.mem := rfl

/-! `advance` -/

@[simp] theorem State.advance_ar (n : Word) : (s.advance n).ar = s.ar := rfl
@[simp] theorem State.advance_ic (n : Word) : (s.advance n).ic = s.ic + n := rfl
@[simp] theorem State.advance_r0 (n : Word) : (s.advance n).r0 = s.r0 := rfl
@[simp] theorem State.advance_r1 (n : Word) : (s.advance n).r1 = s.r1 := rfl
@[simp] theorem State.advance_r2 (n : Word) : (s.advance n).r2 = s.r2 := rfl
@[simp] theorem State.advance_r3 (n : Word) : (s.advance n).r3 = s.r3 := rfl
@[simp] theorem State.advance_hlt (n : Word) : (s.advance n).hlt = s.hlt := rfl
@[simp] theorem State.advance_curop (n : Word) : (s.advance n).curop = s.curop := rfl
@[simp] theorem State.advance_flt (n : Word) : (s.advance n).flt = s.flt := rfl
@[simp] theorem State.advance_mem (n : Word) : (s.advance n).mem = s.mem := rfl

/-! `branch` -/

@[simp] theorem State.branch_ar (b : Bool) (n : Word) : (s.branch b n).ar = s.ar := by cases b <;> rfl
@[simp] theorem State.branch_ic (b : Bool) (n : Word) : (s.branch b n).ic = if b then s.ar else s.ic + n := by
  cases b <;> rfl
@[simp] theorem State.branch_r0 (b : Bool) (n : Word) : (s.branch b n).r0 = s.r0 := by cases b <;> rfl
@[simp] theorem State.branch_r1 (b : Bool) (n : Word) : (s.branch b n).r1 = s.r1 := by cases b <;> rfl
@[simp] theorem State.branch_r2 (b : Bool) (n : Word) : (s.branch b n).r2 = s.r2 := by cases b <;> rfl
@[simp] theorem State.branch_r3 (b : Bool) (n : Word) : (s.branch b n).r3 = s.r3 := by cases b <;> rfl
@[simp] theorem State.branch_hlt (b : Bool) (n : Word) : (s.branch b n).hlt = s.hlt := by cases b <;> rfl
@[simp] theorem State.branch_curop (b : Bool) (n : Word) : (s.branch b n).curop = s.curop := by cases b <;> rfl
@[simp] theorem State.branch_flt (b : Bool) (n : Word) : (s.branch b n).flt = s.flt := by cases b <;> rfl
@[simp] theorem State.branch_mem (b : Bool) (n : Word) : (s.branch b n).mem = s.mem := by cases b <;> rfl

/-! `takeUnknownOpcode` -/

@[simp] theorem takeUnknownOpcode_ar (op : Byte) : (takeUnknownOpcode s op).ar = s.ar := rfl
@[simp] theorem takeUnknownOpcode_ic (op : Byte) : (takeUnknownOpcode s op).ic = s.ic := rfl
@[simp] theorem takeUnknownOpcode_r0 (op : Byte) : (takeUnknownOpcode s op).r0 = s.r0 := rfl
@[simp] theorem takeUnknownOpcode_r1 (op : Byte) : (takeUnknownOpcode s op).r1 = s.r1 := rfl
@[simp] theorem takeUnknownOpcode_r2 (op : Byte) : (takeUnknownOpcode s op).r2 = s.r2 := rfl
@[simp] theorem takeUnknownOpcode_r3 (op : Byte) : (takeUnknownOpcode s op).r3 = s.r3 := rfl
@[simp] theorem takeUnknownOpcode_hlt (op : Byte) : (takeUnknownOpcode s op).hlt = s.hlt := rfl
@[simp] theorem takeUnknownOpcode_curop (op : Byte) : (takeUnknownOpcode s op).curop = s.curop := rfl
@[simp] theorem takeUnknownOpcode_flt (op : Byte) : (takeUnknownOpcode s op).flt = ⟨true, op, s.ic⟩ := rfl
@[simp] theorem takeUnknownOpcode_mem (op : Byte) : (takeUnknownOpcode s op).mem = s.mem := rfl

/-- Two states with equal fields are equal. -/
theorem State.eq_of_fields {s t : State} (har : s.ar = t.ar) (hic : s.ic = t.ic) (h0 : s.r0 = t.r0) (h1 : s.r1 = t.r1)
    (h2 : s.r2 = t.r2) (h3 : s.r3 = t.r3) (hh : s.hlt = t.hlt) (hc : s.curop = t.curop) (hf : s.flt = t.flt)
    (hm : s.mem = t.mem) : s = t := by
  cases s; cases t; simp_all

end Sys2Proof.Machine
end

