-- ==== Sys2Proof/Laws/Memory.lean ====
section
/-! SUPPORT. The laws of memory: read after write (for every list, canonical or not), what the clears leave, and that every
memory operation keeps the canonical form. -/

namespace Sys2Proof.Machine

/-! ### Reading after an operation -/

theorem memLookup_memErase_same (m : Memory) (k : Nat) : memLookup (memErase m k) k = memFill k := by
  induction m with
  | nil => rfl
  | cons c m ih =>
    by_cases h : c.1 = k
    · simpa [memErase, h] using ih
    · simpa [memErase, h, memLookup] using ih

theorem memLookup_memErase_other (m : Memory) {k j : Nat} (hj : j ≠ k) : memLookup (memErase m k) j = memLookup m j := by
  induction m with
  | nil => rfl
  | cons c m ih =>
    by_cases h : c.1 = k
    · have : c.1 ≠ j := fun e => hj (e ▸ h)
      simpa [memErase, h, memLookup, Ne.symm hj] using ih
    · by_cases hc : c.1 = j
      · simp [memErase, memLookup, hc, hj]
      · simpa [memErase, h, memLookup, hc] using ih

theorem memLookup_memInsert_same (m : Memory) (k : Nat) (v : Byte) (hk : ∀ c ∈ m, c.1 ≠ k) :
    memLookup (memInsert k v m) k = v := by
  induction m with
  | nil => simp [memInsert, memLookup]
  | cons c m ih =>
    have hc := hk c (by simp)
    have ih := ih fun d hd => hk d (by simp [hd])
    by_cases h : k < c.1
    · simp [memInsert, h, memLookup]
    · simp [memInsert, h, memLookup, hc, ih]

theorem memLookup_memInsert_other (m : Memory) {k j : Nat} (v : Byte) (hj : j ≠ k) :
    memLookup (memInsert k v m) j = memLookup m j := by
  induction m with
  | nil => simp [memInsert, memLookup, Ne.symm hj]
  | cons c m ih =>
    by_cases h : k < c.1
    · simp [memInsert, h, memLookup, Ne.symm hj]
    · simp only [memInsert, h, if_false, memLookup, ih]

theorem mem_memErase_ne {m : Memory} {k : Nat} {c : Host.Cell} (h : c ∈ memErase m k) : c.1 ≠ k := by
  have := (List.mem_filter.mp h).2
  simpa using this

/-- Reading the byte just written gives the value written (20_memory R57). -/
@[simp] theorem memRead_memWrite_same (m : Memory) (a : Word) (v : Byte) : memRead (memWrite m a v) a = v := by
  unfold memRead memWrite
  split
  · next h => rw [memLookup_memErase_same, h]
  · exact memLookup_memInsert_same _ _ _ fun c hc => mem_memErase_ne hc

/-- A write leaves every other byte alone (20_memory R38: no address is aliased to another). -/
theorem memRead_memWrite_other (m : Memory) {a b : Word} (v : Byte) (h : b ≠ a) :
    memRead (memWrite m a v) b = memRead m b := by
  have hn : b.toNat ≠ a.toNat := fun e => h (BitVec.eq_of_toNat_eq e)
  unfold memRead memWrite
  split
  · exact memLookup_memErase_other _ hn
  · rw [memLookup_memInsert_other _ _ hn, memLookup_memErase_other _ hn]

/-- A read after a write, in one equation. -/
theorem memRead_memWrite (m : Memory) (a b : Word) (v : Byte) :
    memRead (memWrite m a v) b = if b = a then v else memRead m b := by
  split
  · next h => rw [h, memRead_memWrite_same]
  · next h => exact memRead_memWrite_other m v h

/-- A cleared byte reads as its fill, and every other byte as before (20_memory R52). -/
theorem memLookup_memClear (m : Memory) (lo hi k : Nat) :
    memLookup (memClear m lo hi) k = if lo ≤ k ∧ k ≤ hi then memFill k else memLookup m k := by
  induction m with
  | nil => simp [memClear, memLookup]
  | cons c m ih =>
    unfold memClear at ih ⊢
    by_cases h : lo ≤ c.1 ∧ c.1 ≤ hi
    · rw [List.filter_cons_of_neg (by simpa using h), ih]
      by_cases hc : c.1 = k
      · rw [if_pos (hc ▸ h), if_pos (hc ▸ h)]
      · simp [memLookup, hc]
    · rw [List.filter_cons_of_pos (by simp; omega)]
      by_cases hc : c.1 = k
      · rw [if_neg (hc ▸ h)]
        simp [memLookup, hc]
      · simpa [memLookup, hc] using ih

theorem memRead_memClear (m : Memory) (lo hi : Nat) (a : Word) :
    memRead (memClear m lo hi) a = if lo ≤ a.toNat ∧ a.toNat ≤ hi then memFill a.toNat else memRead m a :=
  memLookup_memClear m lo hi a.toNat

/-! ### The canonical form -/

theorem memWfFrom_mono {lo lo' : Nat} {m : Memory} (h : memWfFrom lo m = true) (hl : lo' ≤ lo) : memWfFrom lo' m = true := by
  cases m with
  | nil => rfl
  | cons c m =>
    simp only [memWfFrom, Bool.and_eq_true, decide_eq_true_eq] at h ⊢
    exact ⟨⟨⟨by omega, h.1.1.2⟩, h.1.2⟩, h.2⟩

theorem memWfFrom_filter (p : Host.Cell → Bool) {lo : Nat} {m : Memory} (h : memWfFrom lo m = true) :
    memWfFrom lo (m.filter p) = true := by
  induction m generalizing lo with
  | nil => rfl
  | cons c m ih =>
    simp only [memWfFrom, Bool.and_eq_true, decide_eq_true_eq] at h
    by_cases hp : p c
    · rw [List.filter_cons_of_pos hp]
      simp only [memWfFrom, Bool.and_eq_true, decide_eq_true_eq]
      exact ⟨h.1, ih h.2⟩
    · rw [List.filter_cons_of_neg hp]
      exact ih (memWfFrom_mono h.2 (by omega))

theorem memWfFrom_memInsert {lo k : Nat} {v : Byte} {m : Memory} (h : memWfFrom lo m = true) (hk : ∀ c ∈ m, c.1 ≠ k)
    (hlo : lo ≤ k) (hhi : k < 0x10000) (hv : v ≠ memFill k) : memWfFrom lo (memInsert k v m) = true := by
  induction m generalizing lo with
  | nil => simp [memInsert, memWfFrom, hlo, hhi, hv]
  | cons c m ih =>
    have hc := hk c (by simp)
    have ih := fun {lo'} (h' : memWfFrom lo' m = true) => ih h' fun d hd => hk d (by simp [hd])
    simp only [memWfFrom, Bool.and_eq_true, decide_eq_true_eq] at h
    by_cases hlt : k < c.1
    · simp only [memInsert, hlt, if_true, memWfFrom, Bool.and_eq_true, decide_eq_true_eq]
      exact ⟨⟨⟨hlo, hhi⟩, by simpa using hv⟩, ⟨⟨by omega, h.1.1.2⟩, h.1.2⟩, h.2⟩
    · simp only [memInsert, hlt, if_false, memWfFrom, Bool.and_eq_true, decide_eq_true_eq]
      exact ⟨h.1, ih h.2 (by omega)⟩

/-- A write keeps the canonical form. -/
theorem memWrite_wf {m : Memory} (a : Word) (v : Byte) (h : m.wf = true) : (memWrite m a v).wf = true := by
  unfold memWrite
  split
  · exact memWfFrom_filter _ h
  · next hv => exact memWfFrom_memInsert (memWfFrom_filter _ h) (fun c hc => mem_memErase_ne hc) (Nat.zero_le _) a.isLt hv

/-- A clear keeps the canonical form. -/
theorem memClear_wf {m : Memory} (lo hi : Nat) (h : m.wf = true) : (memClear m lo hi).wf = true := memWfFrom_filter _ h

/-- Storing a list of bytes keeps the canonical form. -/
theorem memWriteBytes_wf {m : Memory} (a : Word) (bs : List Byte) (h : m.wf = true) : (memWriteBytes m a bs).wf = true := by
  induction bs generalizing m a with
  | nil => exact h
  | cons b bs ih => exact ih (a + 1) (memWrite_wf a b h)

/-- The memory of the reset state has the canonical form. -/
theorem reset_mem_wf : State.reset.mem.wf = true := rfl

theorem memLookup_below {lo k : Nat} {m : Memory} (h : memWfFrom lo m = true) (hk : k < lo) : memLookup m k = memFill k := by
  induction m generalizing lo with
  | nil => rfl
  | cons c m ih =>
    simp only [memWfFrom, Bool.and_eq_true, decide_eq_true_eq] at h
    have : c.1 ≠ k := by omega
    simpa [memLookup, this] using ih h.2 (by omega)

/-- Canonical memories that read alike are one list. -/
theorem memory_ext_from {lo : Nat} {m n : Memory} (hm : memWfFrom lo m = true) (hn : memWfFrom lo n = true)
    (h : ∀ k, memLookup m k = memLookup n k) : m = n := by
  induction m generalizing lo n with
  | nil =>
    cases n with
    | nil => rfl
    | cons d n =>
      simp only [memWfFrom, Bool.and_eq_true, decide_eq_true_eq] at hn
      have := h d.1
      simp [memLookup] at this
      simp [← this] at hn
  | cons c m ih =>
    have hc := hm
    simp only [memWfFrom, Bool.and_eq_true, decide_eq_true_eq] at hc
    cases n with
    | nil =>
      have := h c.1
      simp [memLookup] at this
      simp [this] at hc
    | cons d n =>
      have hd := hn
      simp only [memWfFrom, Bool.and_eq_true, decide_eq_true_eq] at hd
      have hkey : c.1 = d.1 := by
        rcases Nat.lt_trichotomy c.1 d.1 with hlt | heq | hgt
        · have e := h c.1
          have hn' : memLookup n c.1 = memFill c.1 := memLookup_below hd.2 (by omega)
          have hne : d.1 ≠ c.1 := by omega
          simp [memLookup, hne, hn'] at e
          simp [e] at hc
        · exact heq
        · have e := h d.1
          have hm' : memLookup m d.1 = memFill d.1 := memLookup_below hc.2 (by omega)
          have hne : c.1 ≠ d.1 := by omega
          simp [memLookup, hne, hm'] at e
          simp [← e] at hd
      have hval : c.2 = d.2 := by
        have e := h c.1
        simpa [memLookup, hkey] using e
      have htail : m = n := by
        refine ih hc.2 (hkey ▸ hd.2) fun k => ?_
        by_cases hk : k = c.1
        · rw [hk, memLookup_below hc.2 (by omega), memLookup_below hd.2 (by omega)]
        · have e := h k
          have h1 : c.1 ≠ k := Ne.symm hk
          have h2 : d.1 ≠ k := hkey ▸ h1
          simpa [memLookup, h1, h2] using e
      rw [htail, Prod.ext hkey hval]

/-- Canonical memories that read alike at every u16 are equal: equal memories are equal data. -/
theorem memory_ext {m n : Memory} (hm : m.wf = true) (hn : n.wf = true) (h : ∀ a : Word, memRead m a = memRead n a) : m = n := by
  have hi : ∀ {lo : Nat} {m : Memory} {k : Nat}, memWfFrom lo m = true → 0x10000 ≤ k → memLookup m k = memFill k := by
    intro lo m k hw hk
    induction m generalizing lo with
    | nil => rfl
    | cons c m ih =>
      simp only [memWfFrom, Bool.and_eq_true, decide_eq_true_eq] at hw
      have : c.1 ≠ k := by omega
      simpa [memLookup, this] using ih hw.2
  refine memory_ext_from hm hn fun k => ?_
  by_cases hk : k < 0x10000
  · have := h (BitVec.ofNat 16 k)
    simpa [memRead, Nat.mod_eq_of_lt hk] using this
  · rw [hi hm (by omega), hi hn (by omega)]

/-! ### The same through the state -/

@[simp] theorem State.load_store_same (s : State) (a : Word) (v : Byte) : (s.store a v).load a = v :=
  memRead_memWrite_same _ _ _

theorem State.load_store_other (s : State) {a b : Word} (v : Byte) (h : b ≠ a) : (s.store a v).load b = s.load b :=
  memRead_memWrite_other _ _ h

theorem State.load_store (s : State) (a b : Word) (v : Byte) : (s.store a v).load b = if b = a then v else s.load b :=
  memRead_memWrite _ _ _ _

theorem nextAddress_ne (a : Word) : nextAddress a ≠ a := by
  intro h
  have := congrArg BitVec.toNat h
  simp [nextAddress] at this
  omega

/-- What a stored pair leaves everywhere (20_memory R46, R48). -/
theorem State.load_storePair (s : State) (a b : Word) (lo hi : Byte) :
    (s.storePair a lo hi).load b = if b = nextAddress a then hi else if b = a then lo else s.load b := by
  simp only [State.storePair, State.load_store]

@[simp] theorem State.load_setAr (s : State) (v : Word) (a : Word) : (s.setAr v).load a = s.load a := rfl
@[simp] theorem State.load_setIc (s : State) (v : Word) (a : Word) : (s.setIc v).load a = s.load a := rfl
@[simp] theorem State.load_setR0 (s : State) (v : Byte) (a : Word) : (s.setR0 v).load a = s.load a := rfl
@[simp] theorem State.load_setR1 (s : State) (v : Byte) (a : Word) : (s.setR1 v).load a = s.load a := rfl
@[simp] theorem State.load_setR2 (s : State) (v : Byte) (a : Word) : (s.setR2 v).load a = s.load a := rfl
@[simp] theorem State.load_setR3 (s : State) (v : Byte) (a : Word) : (s.setR3 v).load a = s.load a := rfl
@[simp] theorem State.load_setHlt (s : State) (v : Bool) (a : Word) : (s.setHlt v).load a = s.load a := rfl
@[simp] theorem State.load_setCurop (s : State) (v : Byte) (a : Word) : (s.setCurop v).load a = s.load a := rfl
@[simp] theorem State.load_setFlt (s : State) (v : FaultLatch) (a : Word) : (s.setFlt v).load a = s.load a := rfl
@[simp] theorem State.load_setPair (s : State) (lo hi : Byte) (a : Word) : (s.setPair lo hi).load a = s.load a := rfl
@[simp] theorem State.load_advance (s : State) (n : Word) (a : Word) : (s.advance n).load a = s.load a := rfl
@[simp] theorem State.load_branch (s : State) (b : Bool) (n : Word) (a : Word) : (s.branch b n).load a = s.load a := by
  cases b <;> rfl

@[simp] theorem load_takeUnknownOpcode (s : State) (op : Byte) (a : Word) : (takeUnknownOpcode s op).load a = s.load a := rfl

end Sys2Proof.Machine
end

