-- ==== Sys2Proof/Laws/Ops.lean ====
section
/-! SUPPORT. One lemma per shared operation that says everything it can do: bytes of a u16, carries and borrows, the opening of a Cycle. -/

namespace Sys2Proof.Machine

/-! ### Bytes of a u16 -/

@[simp] theorem toNat_lowByte (w : Word) : (lowByte w).toNat = w.toNat % 0x100 := by
  simp [lowByte, BitVec.extractLsb'_toNat]

@[simp] theorem toNat_highByte (w : Word) : (highByte w).toNat = w.toNat / 0x100 := by
  have := w.isLt
  simp [highByte, BitVec.extractLsb'_toNat, Nat.shiftRight_eq_div_pow]
  omega

@[simp] theorem toNat_pairWord (hi lo : Byte) : (pairWord hi lo).toNat = hi.toNat * 0x100 + lo.toNat := by
  have h := lo.isLt
  simp only [pairWord, BitVec.toNat_append, Nat.shiftLeft_eq]
  rw [← Nat.shiftLeft_eq, ← Nat.shiftLeft_add_eq_or_of_lt h, Nat.shiftLeft_eq]

@[simp] theorem pairWord_high_low (w : Word) : pairWord (highByte w) (lowByte w) = w := by
  apply BitVec.eq_of_toNat_eq
  simp
  omega

@[simp] theorem lowByte_pairWord (hi lo : Byte) : lowByte (pairWord hi lo) = lo := by
  apply BitVec.eq_of_toNat_eq
  have := lo.isLt
  simp
  omega

@[simp] theorem highByte_pairWord (hi lo : Byte) : highByte (pairWord hi lo) = hi := by
  apply BitVec.eq_of_toNat_eq
  have := lo.isLt
  simp
  omega

/-! ### Saturation, carry, borrow and shift, in exact integers -/

theorem toNat_saturatingInc (v : Byte) : (saturatingInc v).toNat = min (v.toNat + 1) 0xFF := by
  simp [saturatingInc]

theorem toNat_saturatingDec (v : Byte) : (saturatingDec v).toNat = v.toNat - 1 := by
  have := v.isLt
  simp [saturatingDec]
  omega

theorem toNat_shiftLeft (v : Byte) : (shiftLeft v).toNat = v.toNat * 2 % 0x100 := by
  simp [shiftLeft]

theorem toNat_shiftRight (v : Byte) : (shiftRight v).toNat = v.toNat / 2 := by
  have := v.isLt
  simp [shiftRight]
  omega

theorem toNat_addOffset (a : Word) (r : Byte) : (addOffset a r).toNat = (a.toNat + r.toNat) % 0x10000 := by
  simp [addOffset]

/-- A01's carry, path by path (42_alu R98). -/
theorem pairAdd_cases (n r1 r2 : Byte) :
    (r1.toNat + n.toNat ≤ 0xFF ∧ pairAdd n r1 r2 = (r1 + n, r2))
      ∨ (0xFF < r1.toNat + n.toNat ∧ r2 = 0xFF ∧ pairAdd n r1 r2 = (0xFF, 0xFF))
      ∨ (0xFF < r1.toNat + n.toNat ∧ r2 ≠ 0xFF ∧ pairAdd n r1 r2 = (r1 + n, r2 + 1)) := by
  have h1 := r1.isLt
  have hn := n.isLt
  unfold pairAdd
  by_cases h : r1.toNat + n.toNat > 0xFF
  · by_cases h2 : r2 = 0xFF
    · exact .inr (.inl ⟨h, h2, by simp [h, h2]⟩)
    · refine .inr (.inr ⟨h, h2, ?_⟩)
      simp only [h, if_true, h2, if_false, Prod.mk.injEq, and_true]
      apply BitVec.eq_of_toNat_eq
      simp
      omega
  · refine .inl ⟨by omega, ?_⟩
    simp only [h, if_false, Prod.mk.injEq, and_true]
    apply BitVec.eq_of_toNat_eq
    simp

/-- The borrow of S01 and DRW, path by path (42_alu R100, R104): the borrowing paths give the absolute difference. -/
theorem pairSub_cases (n r1 r2 : Byte) :
    (n.toNat ≤ r1.toNat ∧ pairSub n r1 r2 = (r1 - n, r2))
      ∨ (r1.toNat < n.toNat ∧ r2 = 0x00 ∧ pairSub n r1 r2 = (0x00, 0x00))
      ∨ (r1.toNat < n.toNat ∧ r2 ≠ 0x00 ∧ pairSub n r1 r2 = (n - r1, r2 - 1)) := by
  have h1 := r1.isLt
  have hn := n.isLt
  unfold pairSub
  by_cases h : r1.toNat < n.toNat
  · have hx : (r1.toNat : Int) - (n.toNat : Int) < 0 := by omega
    by_cases h2 : r2 = 0x00
    · exact .inr (.inl ⟨h, h2, by simp [hx, h2]⟩)
    · refine .inr (.inr ⟨h, h2, ?_⟩)
      simp only [hx, if_true, h2, if_false, Prod.mk.injEq, and_true]
      apply BitVec.eq_of_toNat_eq
      simp [BitVec.toNat_sub]
      omega
  · have hx : ¬(r1.toNat : Int) - (n.toNat : Int) < 0 := by omega
    refine .inl ⟨by omega, ?_⟩
    simp only [hx, if_false, Prod.mk.injEq, and_true]
    apply BitVec.eq_of_toNat_eq
    simp [BitVec.toNat_sub]
    omega

/-- IRW's carry, path by path (42_alu R103). -/
theorem pairInc_cases (r1 r2 : Byte) :
    (r1 ≠ 0xFF ∧ pairInc r1 r2 = (r1 + 1, r2)) ∨ (r1 = 0xFF ∧ pairInc r1 r2 = (0xFF, saturatingInc r2)) := by
  have h1 := r1.isLt
  unfold pairInc
  by_cases h : r1 = 0xFF
  · exact .inr ⟨h, by simp [h]⟩
  · have hx : ¬r1.toNat + 1 > 0xFF := by
      intro hgt
      exact h (BitVec.eq_of_toNat_eq (by simp; omega))
    refine .inl ⟨h, ?_⟩
    simp only [hx, if_false, Prod.mk.injEq, and_true]
    apply BitVec.eq_of_toNat_eq
    simp

/-! ### The opening of a Cycle -/

@[simp] theorem beginCycle_ar (s : State) : (beginCycle s).ar = s.ar := rfl
@[simp] theorem beginCycle_ic (s : State) : (beginCycle s).ic = s.ic := rfl
@[simp] theorem beginCycle_r0 (s : State) : (beginCycle s).r0 = s.r0 := rfl
@[simp] theorem beginCycle_r1 (s : State) : (beginCycle s).r1 = s.r1 := rfl
@[simp] theorem beginCycle_r2 (s : State) : (beginCycle s).r2 = s.r2 := rfl
@[simp] theorem beginCycle_r3 (s : State) : (beginCycle s).r3 = s.r3 := rfl
@[simp] theorem beginCycle_hlt (s : State) : (beginCycle s).hlt = s.hlt := rfl
@[simp] theorem beginCycle_curop (s : State) : (beginCycle s).curop = s.load s.ic := rfl
@[simp] theorem beginCycle_flt (s : State) : (beginCycle s).flt = s.flt := rfl

/-- What memory holds once a Cycle has opened: the two watchdog bytes moved by one, every other byte as before (40_cycle R78, R79). -/
theorem load_beginCycle (s : State) (a : Word) :
    (beginCycle s).load a =
      if a = Config.wdDecAddr then s.load Config.wdDecAddr - 1
      else if a = Config.wdIncAddr then s.load Config.wdIncAddr + 1
      else s.load a := by
  have h : (Config.wdDecAddr : Word) ≠ Config.wdIncAddr := by decide
  simp only [beginCycle, tickWdDec, tickWdInc, State.load_store, State.load_setCurop, h, if_false]

/-- Opening a Cycle keeps the canonical form. -/
theorem beginCycle_wf {s : State} (h : s.mem.wf = true) : (beginCycle s).mem.wf = true :=
  memWrite_wf _ _ (memWrite_wf _ _ h)

/-- An instruction placed at IC is fetched and decoded as it was given, wherever IC points (40_cycle R81). -/
theorem load_placeInstr (s : State) (op b1 b2 : Byte) (a : Word) :
    (placeInstr s op b1 b2).load a =
      if a = s.ic + 2 then beforeTick (s.ic + 2) b2
      else if a = s.ic + 1 then beforeTick (s.ic + 1) b1
      else if a = s.ic then op
      else s.load a := by
  simp only [placeInstr, operandAddress, State.load_store]

/-- A byte placed before the tick reads as given after it. -/
theorem tick_beforeTick (a : Word) (b : Byte) :
    (if a = Config.wdDecAddr then beforeTick a b - 1 else if a = Config.wdIncAddr then beforeTick a b + 1 else beforeTick a b)
      = b := by
  have h : (Config.wdDecAddr : Word) ≠ Config.wdIncAddr := by decide
  by_cases hd : a = Config.wdDecAddr
  · subst hd
    simp [beforeTick, h]
  · by_cases hi : a = Config.wdIncAddr
    · subst hi
      simp [beforeTick, Ne.symm h]
    · simp [beforeTick, hd, hi]

end Sys2Proof.Machine
end

