-- ==== Sys2Proof/Laws/PerInstr.lean ====
section
/-! SUPPORT. Facts about every instruction as syntax, one lemma per constructor: the form of its encoding. -/

namespace Sys2Proof

/-- Every instruction is well formed: the operand types give it. -/
theorem Instr.wf_all (i : Instr) : i.wf = true := by
  simp only [Instr.wf, Bool.and_eq_true, decide_eq_true_eq, List.all_eq_true]
  exact ⟨by cases i <;> simp [Instr.immediates], fun b _ => b.isLt⟩

end Sys2Proof

namespace Sys2Proof.Laws.EncodedForm

/-- The form of an encoded instruction (30_encoding R64, R66): its opcode is mapped, is its first byte, and gives its length. -/
def Statement (i : Instr) : Prop :=
  mappedOpcode (opcodeOf i) = true ∧ (encode i).head? = some (opcodeOf i) ∧ (encode i).length = lengthOf i
    ∧ opcodeLength (opcodeOf i) = some (lengthOf i) ∧ i.wf = true

theorem nul : Statement .nul := ⟨by decide, rfl, rfl, rfl, Instr.wf_all _⟩
theorem mar (b1 b2 : Byte) : Statement (.mar b1 b2) := ⟨rfl, rfl, rfl, rfl, Instr.wf_all _⟩
theorem sic : Statement .sic := ⟨by decide, rfl, rfl, rfl, Instr.wf_all _⟩
theorem rar : Statement .rar := ⟨by decide, rfl, rfl, rfl, Instr.wf_all _⟩
theorem aar : Statement .aar := ⟨by decide, rfl, rfl, rfl, Instr.wf_all _⟩
theorem ir0 : Statement .ir0 := ⟨by decide, rfl, rfl, rfl, Instr.wf_all _⟩
theorem a01 : Statement .a01 := ⟨by decide, rfl, rfl, rfl, Instr.wf_all _⟩
theorem dr0 : Statement .dr0 := ⟨by decide, rfl, rfl, rfl, Instr.wf_all _⟩
theorem s01 : Statement .s01 := ⟨by decide, rfl, rfl, rfl, Instr.wf_all _⟩
theorem x12 : Statement .x12 := ⟨by decide, rfl, rfl, rfl, Instr.wf_all _⟩
theorem x01 : Statement .x01 := ⟨by decide, rfl, rfl, rfl, Instr.wf_all _⟩
theorem jmp : Statement .jmp := ⟨by decide, rfl, rfl, rfl, Instr.wf_all _⟩
theorem sr0 : Statement .sr0 := ⟨by decide, rfl, rfl, rfl, Instr.wf_all _⟩
theorem srw : Statement .srw := ⟨by decide, rfl, rfl, rfl, Instr.wf_all _⟩
theorem lr0 : Statement .lr0 := ⟨by decide, rfl, rfl, rfl, Instr.wf_all _⟩
theorem lrw : Statement .lrw := ⟨by decide, rfl, rfl, rfl, Instr.wf_all _⟩
theorem taw : Statement .taw := ⟨by decide, rfl, rfl, rfl, Instr.wf_all _⟩
theorem mr0 (b1 : Byte) : Statement (.mr0 b1) := ⟨rfl, rfl, rfl, rfl, Instr.wf_all _⟩
theorem mrw (b1 b2 : Byte) : Statement (.mrw b1 b2) := ⟨rfl, rfl, rfl, rfl, Instr.wf_all _⟩
theorem jz0 : Statement .jz0 := ⟨by decide, rfl, rfl, rfl, Instr.wf_all _⟩
theorem jgw : Statement .jgw := ⟨by decide, rfl, rfl, rfl, Instr.wf_all _⟩
theorem jew : Statement .jew := ⟨by decide, rfl, rfl, rfl, Instr.wf_all _⟩
theorem or0 (b1 : Byte) : Statement (.or0 b1) := ⟨rfl, rfl, rfl, rfl, Instr.wf_all _⟩
theorem an0 (b1 : Byte) : Statement (.an0 b1) := ⟨rfl, rfl, rfl, rfl, Instr.wf_all _⟩
theorem je0 (b1 : Byte) : Statement (.je0 b1) := ⟨rfl, rfl, rfl, rfl, Instr.wf_all _⟩
theorem c01 : Statement .c01 := ⟨by decide, rfl, rfl, rfl, Instr.wf_all _⟩
theorem c02 : Statement .c02 := ⟨by decide, rfl, rfl, rfl, Instr.wf_all _⟩
theorem irw : Statement .irw := ⟨by decide, rfl, rfl, rfl, Instr.wf_all _⟩
theorem drw : Statement .drw := ⟨by decide, rfl, rfl, rfl, Instr.wf_all _⟩
theorem x03 : Statement .x03 := ⟨by decide, rfl, rfl, rfl, Instr.wf_all _⟩
theorem c03 : Statement .c03 := ⟨by decide, rfl, rfl, rfl, Instr.wf_all _⟩
theorem c30 : Statement .c30 := ⟨by decide, rfl, rfl, rfl, Instr.wf_all _⟩
theorem pl0 : Statement .pl0 := ⟨by decide, rfl, rfl, rfl, Instr.wf_all _⟩
theorem pr0 : Statement .pr0 := ⟨by decide, rfl, rfl, rfl, Instr.wf_all _⟩
theorem hlt : Statement .hlt := ⟨by decide, rfl, rfl, rfl, Instr.wf_all _⟩

end Sys2Proof.Laws.EncodedForm
end

