-- ==== Sys2Proof/Laws/Resets.lean ====
section
/-! SUPPORT. What the host's memory operations, the resets and the load leave in every byte, and that they keep the canonical form. -/

namespace Sys2Proof.Machine

/-! ### Plane addresses -/

@[simp] theorem toNat_brightnessAddr (i : Fin 4096) : (brightnessAddr i).toNat = 0xE000 + i.val := by
  have := i.isLt
  simp [brightnessAddr, BitVec.toNat_add]
  omega

@[simp] theorem toNat_colorAddr (i : Fin 4096) : (colorAddr i).toNat = 0xF000 + i.val := by
  have := i.isLt
  simp [colorAddr, BitVec.toNat_add]
  omega

theorem brightnessAddr_inj {i j : Fin 4096} (h : brightnessAddr i = brightnessAddr j) : i = j := by
  have := congrArg BitVec.toNat h
  simp at this
  exact Fin.ext this

/-! ### The clears (20_memory R52) -/

theorem load_clearVideo (s : State) (a : Word) :
    (clearVideo s).load a = if 0xE000 ≤ a.toNat then 0x00 else s.load a := by
  have := a.isLt
  simp only [clearVideo, State.load, State.setMem_mem, memRead_memClear, memFill]
  split_ifs <;> first | rfl | omega

theorem load_clearRam (s : State) (a : Word) :
    (clearRam s).load a = if 0x0100 ≤ a.toNat ∧ a.toNat ≤ 0xDFFF then 0xFF else s.load a := by
  simp only [clearRam, State.load, State.setMem_mem, memRead_memClear, memFill]
  split_ifs <;> rfl

theorem load_clearIo (s : State) (a : Word) :
    (clearIo s).load a = if a.toNat ≤ 0x00FF then 0x00 else s.load a := by
  simp only [clearIo, State.load, State.setMem_mem, memRead_memClear, memFill]
  split_ifs <;> first | rfl | omega

theorem clearVideo_wf {s : State} (h : s.mem.wf = true) : (clearVideo s).mem.wf = true := memClear_wf _ _ h

theorem clearRam_wf {s : State} (h : s.mem.wf = true) : (clearRam s).mem.wf = true := memClear_wf _ _ h

theorem clearIo_wf {s : State} (h : s.mem.wf = true) : (clearIo s).mem.wf = true := memClear_wf _ _ h

/-! ### The glyph (20_memory R53) -/

theorem writeGlyph_cons (w : Fin 4096 × Byte) (g : Config.Glyph) (s : State) :
    writeGlyph (w :: g) s = writeGlyph g (s.store (brightnessAddr w.1) w.2) := rfl

theorem writeGlyph_wf (g : Config.Glyph) {s : State} (h : s.mem.wf = true) : (writeGlyph g s).mem.wf = true := by
  induction g generalizing s with
  | nil => exact h
  | cons w g ih => exact ih (memWrite_wf _ _ h)

/-- A glyph changes memory and nothing else. -/
theorem writeGlyph_eq (g : Config.Glyph) (s : State) : writeGlyph g s = s.setMem (writeGlyph g s).mem := by
  induction g generalizing s with
  | nil => rfl
  | cons w g ih =>
    rw [writeGlyph_cons, ih (s.store _ _)]
    rfl

/-- A glyph writes only the brightness plane. -/
theorem load_writeGlyph_other (g : Config.Glyph) (s : State) {a : Word} (h : ∀ i : Fin 4096, a ≠ brightnessAddr i) :
    (writeGlyph g s).load a = s.load a := by
  induction g generalizing s with
  | nil => rfl
  | cons w g ih => rw [writeGlyph_cons, ih, State.load_store_other _ _ (h _)]

/-! ### The engine reset (70_reset R153) -/

theorem load_engineReset (s : State) (a : Word) :
    (engineReset s).load a = if a = Config.wdIncAddr ∨ a = Config.wdDecAddr then 0x00 else s.load a := by
  simp only [engineReset, State.load_store]
  by_cases hd : a = Config.wdDecAddr
  · simp [hd]
  · by_cases hi : a = Config.wdIncAddr
    · simp [hi]
    · simp [hd, hi]
      rfl

theorem engineReset_wf {s : State} (h : s.mem.wf = true) : (engineReset s).mem.wf = true := by
  simp only [engineReset, State.store_mem]
  exact memWrite_wf _ _ (memWrite_wf _ _ h)

/-! ### The load (70_reset R157) -/

/-- A load either leaves the state alone or replaces the memory by the image's bytes written in order. -/
theorem loadImage_cases (image : Option (List Byte)) (s : State) :
    (loadResult image = .programLoadFailure ∧ loadImage image s = s)
      ∨ ∃ bytes, image = some bytes ∧ bytes.length ≤ Config.ramSize ∧ loadResult image = .ok
        ∧ loadImage image s = s.setMem (memWriteBytes s.mem Config.resetIc bytes) := by
  cases image with
  | none => exact .inl ⟨rfl, rfl⟩
  | some bytes =>
    by_cases h : bytes.length > Config.ramSize
    · exact .inl ⟨by simp [loadResult, h], by simp [loadImage, loadResult, h]⟩
    · exact .inr ⟨bytes, rfl, by omega, by simp [loadResult, h], by simp [loadImage, loadResult, h]⟩

/-- The bytes of an image, written from an address up without reaching the top of the space, stand there in order. -/
theorem memRead_memWriteBytes (m : Memory) (a : Word) (bs : List Byte) (hfit : a.toNat + bs.length ≤ 0x10000) (b : Word) :
    memRead (memWriteBytes m a bs) b =
      if a.toNat ≤ b.toNat then (bs[b.toNat - a.toNat]?).getD (memRead m b) else memRead m b := by
  induction bs generalizing m a with
  | nil => simp [memWriteBytes]
  | cons v bs ih =>
    simp only [List.length_cons] at hfit
    rw [memWriteBytes]
    cases bs with
    | nil =>
      rw [memWriteBytes, memRead_memWrite]
      by_cases hb : b = a
      · simp [hb]
      · have : b.toNat ≠ a.toNat := fun e => hb (BitVec.eq_of_toNat_eq e)
        simp only [hb, if_false]
        split
        · have : 1 ≤ b.toNat - a.toNat := by omega
          rw [List.getElem?_eq_none (by simpa using this)]
          rfl
        · rfl
    | cons w bs =>
      simp only [List.length_cons] at hfit
      have ha : (a + 1 : Word).toNat = a.toNat + 1 := by
        simp [BitVec.toNat_add]
        omega
      rw [ih (memWrite m a v) (a + 1) (by simp only [List.length_cons]; omega), ha, memRead_memWrite]
      by_cases hb : b = a
      · simp [hb]
      · have hne : b.toNat ≠ a.toNat := fun e => hb (BitVec.eq_of_toNat_eq e)
        simp only [hb, if_false]
        by_cases hle : a.toNat + 1 ≤ b.toNat
        · have hle' : a.toNat ≤ b.toNat := by omega
          obtain ⟨k, hk⟩ : ∃ k, b.toNat - a.toNat = k + 1 := ⟨b.toNat - a.toNat - 1, by omega⟩
          have hk' : b.toNat - (a.toNat + 1) = k := by omega
          simp only [hle, hle', if_true, hk, hk', List.getElem?_cons_succ]
        · have hgt : ¬a.toNat ≤ b.toNat := by omega
          simp only [hle, hgt, if_false]

theorem loadImage_wf (image : Option (List Byte)) {s : State} (h : s.mem.wf = true) : (loadImage image s).mem.wf = true := by
  rcases loadImage_cases image s with ⟨-, e⟩ | ⟨bytes, -, -, -, e⟩
  · rwa [e]
  · rw [e]
    exact memWriteBytes_wf _ _ h

end Sys2Proof.Machine
end

