-- ==== Sys2Proof/Laws/Run.lean ====
section
/-! SUPPORT. What the end of a Cycle and a run can be, once each: the provers cite these instead of unfolding `cycleEnd` and `run`. -/

namespace Sys2Proof.Machine

@[simp] theorem run_nil (p : Config.Params) (s : State) : run p [] s = .next ⟨.running, s, 0⟩ := rfl

theorem cycleEnd_eq_halted {s t : State} :
    cycleEnd s t = .halted ↔ fetchInstr s = some .hlt ∧ t.hlt = true ∧ t.flt.faulted = false := by
  unfold cycleEnd
  split <;> simp_all

theorem cycleEnd_eq_faulted {s t : State} : cycleEnd s t = .faulted ↔ fetchInstr s = none := by
  unfold cycleEnd
  split
  · simp_all
  · split <;> simp_all

/-- Only a Cycle ends a run (40_cycle R89). -/
theorem boundaryEnd_of_ne_cycle {x : Txn} (h : x ≠ .cycle) (s t : State) : boundaryEnd x s t = .running := by
  cases x <;> first | rfl | exact absurd rfl h

/-- Everything a run of a further transaction can be: its first transaction ends it, or the rest of it goes on from that boundary. -/
theorem run_cons_iff {p : Config.Params} {x : Txn} {xs : List Txn} {s : State} {r : Run} :
    run p (x :: xs) s = .next r ↔ ∃ t reply, transact p x s = .next (t, reply)
      ∧ ((boundaryEnd x s t = .running ∧ ∃ q, run p xs t = .next q ∧ r = { q with count := q.count + 1 })
        ∨ (boundaryEnd x s t ≠ .running ∧ r = ⟨boundaryEnd x s t, t, 1⟩)) := by
  rw [run]
  cases h : transact p x s with
  | next y =>
    obtain ⟨t, reply⟩ := y
    cases e : boundaryEnd x s t with
    | running => cases k : run p xs t <;> simp [oneMore, e, k, eq_comm]
    | halted => simp [e, eq_comm]
    | faulted => simp [e, eq_comm]
  | fault e => simp
  | refused e => simp

end Sys2Proof.Machine
end

