-- ==== Sys2Proof/Tests/Slice0.lean ====
section
/-! SUPPORT. The model's own tests. Expected results come from spec/: the vectors of 95_test_vectors (named in each docstring), the
words of opcode_table.json written out bit by bit, and the examples of the rules. After them, for every statement with hypotheses, a
witness: a concrete case that meets them all. -/

namespace Sys2Proof.Tests

open Sys2Proof.Machine Sys2Proof.Claims

/-- A state with bytes stored at IC onward. -/
def put (s : State) (bs : List Byte) : State := s.setMem (memWriteBytes s.mem s.ic bs)

/-- Parameters for the tests: an empty BOOT_GLYPH, as 95_test_vectors takes it. -/
def params : Config.Params := ⟨[], 0x01, 1, .onRelease⟩

/-! ### Well-formedness: an ill-formed line for each check, and well-formed ones -/

theorem test_wf_refuses_unmapped_opcode : (SourceLine.mk 0x50 []).opcodeOk = false ∧ (SourceLine.mk 0x50 []).wf = false := by decide

theorem test_wf_refuses_missing_operand : (SourceLine.mk 0x17 []).countOk = false ∧ (SourceLine.mk 0x17 []).wf = false := by decide

theorem test_wf_refuses_extra_operand : (SourceLine.mk 0x06 [1]).countOk = false ∧ (SourceLine.mk 0x06 [1]).wf = false := by decide

theorem test_wf_refuses_wide_operand : (SourceLine.mk 0x17 [0x100]).rangeOk = false ∧ (SourceLine.mk 0x17 [0x100]).wf = false
    ∧ (SourceLine.mk 0x01 [0x10000]).wf = false := by decide

/-- The four examples of 30_encoding R76. -/
theorem test_assembly_examples :
    (assemble ⟨0x06, []⟩).map encode = some [0x06] ∧ (assemble ⟨0x17, [0x05]⟩).map encode = some [0x17, 0x05]
      ∧ (assemble ⟨0x01, [0x1234]⟩).map encode = some [0x01, 0x34, 0x12]
      ∧ (assemble ⟨0x18, [0xFE, 0x00]⟩).map encode = some [0x18, 0xFE, 0x00] := by decide

/-! ### Decoding: every constructor from a word written out from opcode_table.json -/

theorem test_decode_address :
    decodeTableWord 8 0b00000000 = some .nul
      ∧ decodeTableWord 24 0b000100100011010000000001 = some (.mar 0x34 0x12)
      ∧ decodeTableWord 8 0b00000010 = some .sic
      ∧ decodeTableWord 8 0b00000011 = some .rar
      ∧ decodeTableWord 8 0b00000100 = some .aar
      ∧ decodeTableWord 8 0b00010110 = some .taw := by decide

theorem test_decode_alu :
    decodeTableWord 8 0b00000101 = some .ir0
      ∧ decodeTableWord 8 0b00000110 = some .a01
      ∧ decodeTableWord 8 0b00000111 = some .dr0
      ∧ decodeTableWord 8 0b00001000 = some .s01
      ∧ decodeTableWord 16 0b1111000000100010 = some (.or0 0xF0)
      ∧ decodeTableWord 16 0b0000111100100011 = some (.an0 0x0F)
      ∧ decodeTableWord 8 0b00100111 = some .irw
      ∧ decodeTableWord 8 0b00101000 = some .drw
      ∧ decodeTableWord 8 0b00101100 = some .pl0
      ∧ decodeTableWord 8 0b00101101 = some .pr0 := by decide

theorem test_decode_move :
    decodeTableWord 8 0b00001001 = some .x12
      ∧ decodeTableWord 8 0b00010000 = some .x01
      ∧ decodeTableWord 16 0b0000010100010111 = some (.mr0 0x05)
      ∧ decodeTableWord 24 0b000000001111111000011000 = some (.mrw 0xFE 0x00)
      ∧ decodeTableWord 8 0b00100101 = some .c01
      ∧ decodeTableWord 8 0b00100110 = some .c02
      ∧ decodeTableWord 8 0b00101001 = some .x03
      ∧ decodeTableWord 8 0b00101010 = some .c03
      ∧ decodeTableWord 8 0b00101011 = some .c30 := by decide

theorem test_decode_load_store :
    decodeTableWord 8 0b00010010 = some .sr0
      ∧ decodeTableWord 8 0b00010011 = some .srw
      ∧ decodeTableWord 8 0b00010100 = some .lr0
      ∧ decodeTableWord 8 0b00010101 = some .lrw := by decide

theorem test_decode_control :
    decodeTableWord 8 0b00010001 = some .jmp
      ∧ decodeTableWord 8 0b00011001 = some .jz0
      ∧ decodeTableWord 8 0b00100000 = some .jgw
      ∧ decodeTableWord 8 0b00100001 = some .jew
      ∧ decodeTableWord 16 0b0001000000100100 = some (.je0 0x10)
      ∧ decodeTableWord 8 0b11111111 = some .hlt := by decide

/-- The gaps of 30_encoding R74 at both ends of each. -/
theorem test_decode_gaps :
    ([0x0A, 0x0F, 0x1A, 0x1F, 0x2E, 0x50, 0xFE].all fun n => (decodeTableWord 8 n).isNone) = true := by decide

theorem test_decode_truncated : decode [0x01, 0x34] = .error (.truncated 0x01) ∧ decode [] = .error .empty := by decide

/-! ### One Cycle each, the vectors of 95_test_vectors -/

/-- V-NUL-1. -/
theorem test_nul_advances :
    let t := afterCycle (put State.reset [0x00])
    t.ic = 0x0101 ∧ t.curop = 0x00 := by decide

/-- V-NUL-2. -/
theorem test_nul_wraps :
    let t := afterCycle (put { State.reset with ic := 0xFFFF } [0x00])
    t.ic = 0x0000 := by decide

/-- V-MAR-1. -/
theorem test_mar_little_endian :
    let t := afterCycle (put State.reset [0x01, 0x34, 0x12])
    t.ar = 0x1234 ∧ t.ic = 0x0103 := by decide

/-- V-MAR-3. -/
theorem test_mar_operands_wrap :
    let t := afterCycle (put { State.reset with ic := 0xFFFE } [0x01, 0xCD, 0xAB])
    t.ar = 0xABCD ∧ t.ic = 0x0001 := by decide

/-- V-SIC-2. -/
theorem test_sic_high_byte_wraps :
    let t := afterCycle (put { State.reset with ic := 0x0123, ar := 0xFFFF } [0x02])
    t.load 0xFFFF = 0x23 ∧ t.load 0x0000 = 0x01 ∧ t.ic = 0x0124 := by decide

/-- V-SIC-4. -/
theorem test_sic_overrides_watchdog :
    let t := afterCycle (put { State.reset with ar := 0x0010 } [0x02])
    t.load 0x0010 = 0x00 ∧ t.load 0x0011 = 0x01 := by decide

/-- V-RAR-1. -/
theorem test_rar :
    let t := afterCycle (put { State.reset with r1 := 0x34, r2 := 0x12 } [0x03])
    t.ar = 0x1234 := by decide

/-- V-AAR-2. -/
theorem test_aar_wraps :
    let t := afterCycle (put { State.reset with ar := 0xFFF0, r0 := 0x20 } [0x04])
    t.ar = 0x0010 := by decide

/-- V-TAW-1. -/
theorem test_taw :
    let t := afterCycle (put { State.reset with ar := 0xF00A } [0x16])
    t.r1 = 0x0A ∧ t.r2 = 0xF0 ∧ t.ar = 0xF00A := by decide

/-- V-IR0-2. -/
theorem test_ir0_to_top :
    let t := afterCycle (put { State.reset with r0 := 0xFE } [0x05])
    t.r0 = 0xFF := by decide

/-- V-IR0-3. -/
theorem test_ir0_saturates :
    let t := afterCycle (put { State.reset with r0 := 0xFF } [0x05])
    t.r0 = 0xFF ∧ t.ic = 0x0101 := by decide

/-- V-A01-4. -/
theorem test_a01_carries :
    let t := afterCycle (put { State.reset with r0 := 0xFF, r1 := 0xFF, r2 := 0xFE } [0x06])
    t.r1 = 0xFE ∧ t.r2 = 0xFF ∧ t.r0 = 0xFF := by decide

/-- V-A01-5. -/
theorem test_a01_saturates :
    let t := afterCycle (put { State.reset with r0 := 0x10, r1 := 0xF8, r2 := 0xFF } [0x06])
    t.r1 = 0xFF ∧ t.r2 = 0xFF := by decide

/-- V-DR0-3. -/
theorem test_dr0_saturates :
    let t := afterCycle (put { State.reset with r0 := 0x00 } [0x07])
    t.r0 = 0x00 := by decide

/-- V-DR0-1. -/
theorem test_dr0_steps :
    let t := afterCycle (put { State.reset with r0 := 0x03 } [0x07])
    t.r0 = 0x02 := by decide

/-- V-S01-6. -/
theorem test_s01_absolute_difference :
    let t := afterCycle (put { State.reset with r0 := 0x05, r1 := 0x02, r2 := 0x01 } [0x08])
    t.r1 = 0x03 ∧ t.r2 = 0x00 := by decide

/-- V-S01-2. -/
theorem test_s01_underflow :
    let t := afterCycle (put { State.reset with r0 := 0x05, r1 := 0x02, r2 := 0x00 } [0x08])
    t.r1 = 0x00 ∧ t.r2 = 0x00 := by decide

/-- V-OR0-3. -/
theorem test_or0_operand_wraps :
    let t := afterCycle (put { State.reset with ic := 0xFFFF, r0 := 0x02 } [0x22, 0x81])
    t.r0 = 0x83 ∧ t.ic = 0x0001 := by decide

/-- V-AN0-1. -/
theorem test_an0 :
    let t := afterCycle (put { State.reset with r0 := 0x3C } [0x23, 0x0F])
    t.r0 = 0x0C ∧ t.ic = 0x0102 := by decide

/-- V-IRW-2. -/
theorem test_irw_sticks :
    let t := afterCycle (put { State.reset with r1 := 0xFF, r2 := 0x07 } [0x27])
    t.r1 = 0xFF ∧ t.r2 = 0x08 := by decide

/-- V-IRW-1. -/
theorem test_irw_steps :
    let t := afterCycle (put { State.reset with r1 := 0x10, r2 := 0x07 } [0x27])
    t.r1 = 0x11 ∧ t.r2 = 0x07 := by decide

/-- V-DRW-2. -/
theorem test_drw_borrows :
    let t := afterCycle (put { State.reset with r1 := 0x00, r2 := 0x03 } [0x28])
    t.r1 = 0x01 ∧ t.r2 = 0x02 := by decide

/-- V-DRW-3. -/
theorem test_drw_clamps :
    let t := afterCycle (put { State.reset with r1 := 0x00, r2 := 0x00 } [0x28])
    t.r1 = 0x00 ∧ t.r2 = 0x00 := by decide

/-- V-PL0-3. -/
theorem test_pl0_truncates :
    let t := afterCycle (put { State.reset with r0 := 0xFF } [0x2C])
    t.r0 = 0xFE := by decide

/-- V-PR0-3. -/
theorem test_pr0_logical :
    let t := afterCycle (put { State.reset with r0 := 0xFF } [0x2D])
    t.r0 = 0x7F := by decide

/-- V-X12-1. -/
theorem test_x12 :
    let t := afterCycle (put { State.reset with r1 := 0x01, r2 := 0x02 } [0x09])
    t.r1 = 0x02 ∧ t.r2 = 0x01 := by decide

/-- V-X01-1. -/
theorem test_x01 :
    let t := afterCycle (put { State.reset with r0 := 0xAA, r1 := 0x55 } [0x10])
    t.r0 = 0x55 ∧ t.r1 = 0xAA := by decide

/-- V-MR0-1. -/
theorem test_mr0 :
    let t := afterCycle (put State.reset [0x17, 0x05])
    t.r0 = 0x05 ∧ t.ic = 0x0102 := by decide

/-- V-MR0-3. -/
theorem test_mr0_operand_after_watchdog :
    let t := afterCycle (put { State.reset with ic := 0x000F } [0x17])
    t.r0 = 0x01 ∧ t.ic = 0x0011 ∧ t.load 0x0010 = 0x01 ∧ t.load 0x0011 = 0xFF := by decide

/-- V-MRW-2. -/
theorem test_mrw_operands_wrap :
    let t := afterCycle (put { State.reset with ic := 0xFFFE } [0x18, 0x34, 0x12])
    t.r1 = 0x34 ∧ t.r2 = 0x12 ∧ t.ic = 0x0001 := by decide

/-- V-C01-1. -/
theorem test_c01 :
    let t := afterCycle (put { State.reset with r0 := 0x7E } [0x25])
    t.r1 = 0x7E ∧ t.r2 = 0x00 := by decide

/-- V-C02-1. -/
theorem test_c02 :
    let t := afterCycle (put { State.reset with r0 := 0xE0 } [0x26])
    t.r2 = 0xE0 ∧ t.r1 = 0x00 := by decide

/-- V-X03-1. -/
theorem test_x03 :
    let t := afterCycle (put { State.reset with r0 := 0x01, r3 := 0x09 } [0x29])
    t.r0 = 0x09 ∧ t.r3 = 0x01 := by decide

/-- V-C03-1. -/
theorem test_c03 :
    let t := afterCycle (put { State.reset with r0 := 0x10 } [0x2A])
    t.r3 = 0x10 ∧ t.r0 = 0x10 := by decide

/-- V-C30-1. -/
theorem test_c30 :
    let t := afterCycle (put { State.reset with r0 := 0x99, r3 := 0x10 } [0x2B])
    t.r0 = 0x10 ∧ t.r3 = 0x10 := by decide

/-- V-SR0-3. -/
theorem test_sr0_overrides_watchdog :
    let t := afterCycle (put { State.reset with ar := 0x0010, r0 := 0x40 } [0x12])
    t.load 0x0010 = 0x40 ∧ t.load 0x0011 = 0xFF := by decide

/-- V-SR0-4. -/
theorem test_sr0_into_code :
    let t := afterCycle (put { State.reset with ar := 0x0101, r0 := 0x00 } [0x12])
    t.load 0x0101 = 0x00 ∧ t.ic = 0x0101 := by decide

/-- V-SRW-2. -/
theorem test_srw_wraps :
    let t := afterCycle (put { State.reset with ar := 0xFFFF, r1 := 0xAA, r2 := 0xBB } [0x13])
    t.load 0xFFFF = 0xAA ∧ t.load 0x0000 = 0xBB := by decide

/-- V-SRW-3. -/
theorem test_srw_across_regions :
    let t := afterCycle (put { State.reset with ar := 0xDFFF, r1 := 0x11, r2 := 0x22 } [0x13])
    t.load 0xDFFF = 0x11 ∧ t.load 0xE000 = 0x22 := by decide

/-- V-LR0-2. -/
theorem test_lr0_ram_fill :
    let t := afterCycle (put { State.reset with ar := 0x0500 } [0x14])
    t.r0 = 0xFF := by decide

/-- V-LR0-4. -/
theorem test_lr0_reads_updated_watchdog :
    let t := afterCycle (put { State.reset with ar := 0x0011 } [0x14])
    t.r0 = 0xFF ∧ t.load 0x0011 = 0xFF := by decide

/-- V-LRW-2. -/
theorem test_lrw_wraps :
    let t := afterCycle (put (State.store (State.store { State.reset with ar := 0xFFFF } 0xFFFF 0x01) 0x0000 0x02) [0x15])
    t.r1 = 0x01 ∧ t.r2 = 0x02 := by decide

/-- V-LRW-1. -/
theorem test_lrw :
    let t := afterCycle (put (State.store (State.store { State.reset with ar := 0x0200 } 0x0200 0x05) 0x0201 0x01) [0x15])
    t.r1 = 0x05 ∧ t.r2 = 0x01 := by decide

/-- V-JMP-1. -/
theorem test_jmp :
    let t := afterCycle (put { State.reset with ar := 0x0200 } [0x11])
    t.ic = 0x0200 := by decide

/-- V-JZ0-1. -/
theorem test_jz0_taken :
    let t := afterCycle (put { State.reset with ar := 0x0150 } [0x19])
    t.ic = 0x0150 ∧ t.ar = 0x0150 := by decide

/-- V-JZ0-2. -/
theorem test_jz0_not_taken :
    let t := afterCycle (put { State.reset with ar := 0x0150, r0 := 0x01 } [0x19])
    t.ic = 0x0101 := by decide

/-- V-JGW-3. -/
theorem test_jgw_unsigned :
    let t := afterCycle (put { State.reset with ar := 0x0150, r1 := 0x80, r2 := 0x7F } [0x20])
    t.ic = 0x0150 := by decide

/-- V-JGW-2. -/
theorem test_jgw_equal_not_taken :
    let t := afterCycle (put { State.reset with ar := 0x0150, r1 := 0x03, r2 := 0x03 } [0x20])
    t.ic = 0x0101 := by decide

/-- V-JEW-1. -/
theorem test_jew_taken :
    let t := afterCycle (put { State.reset with ar := 0x0180, r1 := 0x40, r2 := 0x40 } [0x21])
    t.ic = 0x0180 := by decide

/-- V-JEW-2. -/
theorem test_jew_not_taken :
    let t := afterCycle (put { State.reset with ar := 0x0180, r1 := 0x40, r2 := 0x41 } [0x21])
    t.ic = 0x0101 := by decide

/-- V-JE0-1. -/
theorem test_je0_taken :
    let t := afterCycle (put { State.reset with ar := 0x0120, r0 := 0x10 } [0x24, 0x10])
    t.ic = 0x0120 := by decide

/-- V-JE0-3. -/
theorem test_je0_not_taken_wraps :
    let t := afterCycle (put { State.reset with ic := 0xFFFF, ar := 0x0120, r0 := 0x05 } [0x24, 0x00])
    t.ic = 0x0001 := by decide

/-- V-HLT-2. -/
theorem test_hlt_wraps :
    let t := afterCycle (put { State.reset with ic := 0xFFFF } [0xFF])
    t.ic = 0x0000 ∧ t.hlt = true := by decide

/-- V-CYC-5. -/
theorem test_hlt_while_halted :
    let t := afterCycle (put { State.reset with hlt := true } [0xFF])
    t.ic = 0x0101 ∧ t.hlt = true ∧ t.load 0x0010 = 0x01 ∧ t.load 0x0011 = 0xFF := by decide

/-- V-CYC-3. -/
theorem test_fetch_before_increment :
    let t := afterCycle (put (State.store { State.reset with ic := 0x0010 } 0x0011 0xFF) [0x05])
    t.ic = 0x0011 ∧ t.r0 = 0x01 ∧ t.load 0x0010 = 0x06 ∧ t.load 0x0011 = 0xFE ∧ t.curop = 0x05 := by decide

/-- V-CYC-4. -/
theorem test_fetch_before_decrement :
    let t := afterCycle (put { State.reset with ic := 0x0011 } [0x05])
    t.r0 = 0x01 ∧ t.load 0x0010 = 0x01 ∧ t.load 0x0011 = 0x04 := by decide

/-- V-UNK-1. -/
theorem test_unknown_opcode :
    let t := afterCycle (put State.reset [0x50])
    t.flt = ⟨true, 0x50, 0x0100⟩ ∧ t.ic = 0x0100 ∧ t.curop = 0x50 ∧ t.load 0x0010 = 0x01 ∧ t.load 0x0011 = 0xFF := by decide

/-- V-UNK-8. -/
theorem test_unknown_opcode_again :
    let t := afterCycle (put (State.store (State.store { State.reset with flt := ⟨true, 0x50, 0x0100⟩ } 0x0010 0x01) 0x0011 0xFF) [0x50])
    t.flt = ⟨true, 0x50, 0x0100⟩ ∧ t.load 0x0010 = 0x02 ∧ t.load 0x0011 = 0xFE := by decide

/-- V-UNK-9. -/
theorem test_ram_fill_halts :
    let t := afterCycle (put State.reset [])
    t.ic = 0x0101 ∧ t.hlt = true := by decide

/-! ### The host's transactions -/

/-- S11 and S12: region edges. -/
theorem test_region_edges :
    (State.reset.store 0x00FF 0x5A).load 0x00FF = 0x5A ∧ State.reset.load 0x0100 = 0xFF ∧ State.reset.load 0xDFFF = 0xFF
      ∧ State.reset.load 0x00FF = 0x00 ∧ State.reset.load 0xE000 = 0x00 := by decide

/-- S13 and S14 with 20_memory R37 and R38: where the planes begin and end. -/
theorem test_plane_edges :
    regionOf 0xE000 = .brightness ∧ regionIndex 0xE000 = 0 ∧ regionOf 0xFFFF = .color ∧ regionIndex 0xFFFF = 4095
      ∧ regionOf 0x00FF = .io ∧ regionOf 0x0100 = .ram ∧ regionOf 0xDFFF = .ram ∧ regionIndex 0xDFFF = 57087 := by decide

/-- S15: the three clears fill differently. -/
theorem test_clears :
    let s := ((State.reset.store 0x0100 0x00).store 0x0020 0x10).store 0xE000 0x01
    (clearRam s).load 0x0100 = 0xFF ∧ (clearRam s).load 0x0020 = 0x10 ∧ (clearRam s).load 0xE000 = 0x01
      ∧ (clearVideo s).load 0xE000 = 0x00 ∧ (clearIo s).load 0x0020 = 0x00 := by decide

/-- S16 at both ends of the image, V-RAS-1 and V-RAS-2. -/
theorem test_pixels :
    pixel ((State.reset.store 0xE000 0xFF).store 0xF000 0x80) 0 = some 3 ∧ pixel (State.reset.store 0xE0C5 0x01) 197 = some 2
      ∧ pixel (State.reset.store 0xFFFF 0x01) 4095 = some 1 ∧ pixel State.reset 4095 = some 0 ∧ pixel State.reset 4096 = none := by
  decide

/-- The state of V-RST-1. -/
def beforeReset : State :=
  (((((({ State.reset with
    ar := 0x1234, ic := 0x0456, r0 := 0x01, r1 := 0x02, r2 := 0x03, r3 := 0x04, hlt := true, flt := ⟨true, 0x50, 0x0455⟩ }.store
      0x0010 0x33).store 0x0011 0x44).store 0x000A 0x01).store 0x0020 0x10).store 0x0200 0x00).store 0xE000 0x01)

/-- V-RST-1. -/
theorem test_engine_reset :
    let t := engineReset beforeReset
    t.ic = 0x0100 ∧ t.r3 = 0x00 ∧ t.hlt = false ∧ t.flt = ⟨false, 0x50, 0x0455⟩ ∧ t.load 0x0010 = 0x00 ∧ t.load 0x0011 = 0x00
      ∧ t.load 0x000A = 0x01 ∧ t.load 0x0020 = 0x10 ∧ t.load 0x0200 = 0x00 ∧ t.load 0xE000 = 0x01 := by decide

/-- V-RST-2. -/
theorem test_soft_reset :
    let t := softReset beforeReset
    t.ar = 0x0000 ∧ t.load 0x0200 = 0xFF ∧ t.load 0xE000 = 0x00 ∧ t.load 0x000A = 0x01 ∧ t.load 0x0020 = 0x10 := by decide

/-- V-RST-3. -/
theorem test_hard_reset :
    let t := hardReset params beforeReset
    t.load 0x000A = 0x00 ∧ t.load 0x0020 = 0x00 ∧ t.load 0x0200 = 0xFF ∧ t.load 0xE000 = 0x00 := by decide

/-- V-LD-1 and V-LD-4. -/
theorem test_load_image :
    let t := loadImage (some [0x17, 0x05, 0xFF]) State.reset
    t.load 0x0100 = 0x17 ∧ t.load 0x0101 = 0x05 ∧ t.load 0x0102 = 0xFF ∧ t.load 0x0103 = 0xFF ∧ t.ic = 0x0100
      ∧ loadImage none State.reset = State.reset ∧ loadResult none = .programLoadFailure := by decide

/-- V-UNK-1's reply and that of a mapped opcode. -/
theorem test_cycle_result :
    cycleResult (put State.reset [0x50]) = some (.unknownOpcode 0x50 0x0100) ∧ cycleResult State.reset = none := by decide

/-- V-RAS-6 to V-RAS-8. -/
theorem test_should_redraw :
    shouldRedraw State.reset = false ∧ shouldRedraw (State.reset.store 0x000A 0x80) = true
      ∧ shouldRedraw ((State.reset.store 0x000A 0x01).store 0x000A 0x00) = false := by decide

/-- P8's keyboard write reaches the byte before the Cycle: one burst of LR0 from KEY. -/
theorem test_driver_presses_key :
    (driverBurst 1 ⟨put { State.reset with ar := 0x0020 } [0x14], [some .action], []⟩).state.r0 = 0x10 := by decide

/-- 40_cycle R89: HLT = 1 at the start ends nothing; the Cycle that executes NUL leaves the run running. -/
theorem test_run_started_halted_is_running :
    let s := put { State.reset with hlt := true } [0x00]
    run params [.cycle] s = .next ⟨.running, afterCycle s, 1⟩ := rfl

/-- 40_cycle R89: a fault ends the run at its boundary, whatever the host issues after it. -/
theorem test_run_ends_at_the_first_boundary :
    let s := put State.reset [0x50]
    run params [.readRegs, .cycle, .hardReset, .cycle] s = .next ⟨.faulted, afterCycle s, 2⟩ := rfl

/-! ### Witnesses: the hypotheses of each statement can be met -/

theorem witness_CycleOpensWithFetchAndWatchdog : (0x000F : Word) ≠ 0x0010 ∧ (0x0012 : Word) ≠ 0x0011 := by decide

theorem witness_UnmappedOpcodesAreRejected_fetched : let s := put State.reset [0x50]; (slotOf (s.load s.ic)).isNone = true := by decide

theorem witness_UnmappedOpcodesAreRejected :
    slotOf 0x0A = none ∧ slotOf 0x0F = none ∧ slotOf 0x1A = none ∧ slotOf 0x1F = none ∧ slotOf 0x2E = none ∧ slotOf 0xFE = none :=
  ⟨rfl, rfl, rfl, rfl, rfl, rfl⟩

theorem witness_DecodeAndEncodeAgree : (Instr.mar 0x34 0x12).wf = true ∧ decode [0x01, 0x34, 0x12, 0xFF] = .ok (.mar 0x34 0x12, [0xFF]) := by
  decide

theorem witness_AssemblyNotationGivesBytes :
    0xFFFF < 0x10000 ∧ 0xFF < 0x100 ∧ (0x24 : Byte) ∈ ([0x17, 0x22, 0x23, 0x24] : List Byte) ∧ (SourceLine.mk 0x01 [0xFFFF]).wf = true := by
  decide

theorem witness_StepRunsTheDecodedInstruction :
    let s := put State.reset [0x17, 0x05]
    decode [s.load s.ic, (beginCycle s).load (s.ic + 1), (beginCycle s).load (s.ic + 2)] = .ok (.mr0 0x05, [0xFF])
      ∧ (Instr.mr0 0x05).wf = true := by decide

theorem witness_UnknownOpcodeIsTaken : let s := put State.reset [0x0A]; mappedOpcode (s.load s.ic) = false := by decide

theorem witness_CycleTransactionReportsTheFault :
    transact params (.hostWrite 0x0020 0x10) State.reset = .next (State.reset.store 0x0020 0x10, .done) := rfl

/-- One state for each clause, its operand, data read or store at a watchdog byte; V-CYC-3, V-CYC-4 and V-MR0-3 are among them. -/
theorem witness_OnlyTheOpcodeIsFetchedBeforeTheWatchdog :
    (let s := put { State.reset with ic := 0x0010 } [0x05]; s.ic = 0x0010 ∧ s.load 0x0010 = 0x05)
      ∧ (let s := put { State.reset with ic := 0x0011 } [0x05]; s.ic = 0x0011 ∧ s.load 0x0011 = 0x05)
      ∧ (let s := put { State.reset with ic := 0x000F } [0x01]; s.load s.ic = 0x01 ∧ s.ic + 1 = 0x0010 ∧ s.ic + 2 = 0x0011)
      ∧ (let s := put { State.reset with ic := 0x000F } [0x17]; s.load s.ic = 0x17 ∧ s.ic + 1 = 0x0010)
      ∧ (let s := put { State.reset with ic := 0x000E } [0x18]; s.load s.ic = 0x18 ∧ s.ic + 2 = 0x0010)
      ∧ (let s := put { State.reset with ic := 0x000F } [0x22]; s.load s.ic = 0x22 ∧ s.ic + 1 = 0x0010)
      ∧ (let s := put { State.reset with ic := 0x0010 } [0x23]; s.load s.ic = 0x23 ∧ s.ic + 1 = 0x0011)
      ∧ (let s := put { State.reset with ic := 0x0010 } [0x24]; s.load s.ic = 0x24 ∧ s.ic + 1 = 0x0011)
      ∧ (let s := put { State.reset with ar := 0x0011 } [0x14]; s.load s.ic = 0x14 ∧ s.ar = 0x0011)
      ∧ (let s := put { State.reset with ar := 0x000F } [0x15]; s.load s.ic = 0x15 ∧ s.ar + 1 = 0x0010)
      ∧ (let s := put { State.reset with ar := 0x0011 } [0x12]; s.load s.ic = 0x12 ∧ s.ar = 0x0011)
      ∧ (let s := put { State.reset with ar := 0x0010 } [0x13]; s.load s.ic = 0x13 ∧ s.ar + 1 = 0x0011)
      ∧ (let s := put { State.reset with ar := 0x0011 } [0x02]; s.load s.ic = 0x02 ∧ s.ar = 0x0011) := by decide

/-- NextCycleRuns' own clauses: an opcode that decodes and one that does not. -/
theorem witness_NextCycleRuns : decodeOp 0x17 0x05 0xFF = some (.mr0 0x05) ∧ slotOf 0x50 = none := ⟨rfl, rfl⟩

theorem witness_WatchdogReadsOneMoreThanStored :
    let s := put { State.reset with ar := 0x0010, r0 := 0xFF } [0x12, 0x14]
    s.load s.ic = 0x12 ∧ s.ar = 0x0010 ∧ (afterCycle s).load (afterCycle s).ic = 0x14 := by decide

theorem witness_WatchdogReadsOneMoreThanStored_step :
    let s := put { State.reset with ar := 0x0010, r0 := 0xFF } [0x12, 0x14]
    step s = .next (afterCycle s) := rfl

theorem witness_WatchdogBytesCountCycles :
    quiet 2 State.reset = true ∧ State.reset.load 0x0010 = 0x00 ∧ State.reset.load 0x0011 = 0x00 := by decide

theorem witness_StoreIntoCodeIsSeenByTheNextFetch :
    (let s := put { State.reset with ar := 0x0101, r0 := 0x50 } [0x12]; fetchInstr s = some .sr0 ∧ s.load s.ic = 0x12 ∧ s.ar = s.ic + 1)
      ∧ (let s := put { State.reset with ar := 0x0101, r1 := 0x17 } [0x13]; s.load s.ic = 0x13 ∧ s.ar = s.ic + 1)
      ∧ (let s := put { State.reset with ar := 0x0100, r2 := 0x05 } [0x13]; s.load s.ic = 0x13 ∧ s.ar = s.ic)
      ∧ (let s := put { State.reset with ar := 0x0101 } [0x02]; s.load s.ic = 0x02 ∧ s.ar = s.ic + 1)
      ∧ (let s := put { State.reset with ar := 0x0100 } [0x02]; s.load s.ic = 0x02 ∧ s.ar = s.ic)
      ∧ (let s := put { State.reset with ar := 0x0102, r0 := 0x05 } [0x12, 0x17]; s.load s.ic = 0x12 ∧ s.ar = s.ic + 2) := by decide

theorem witness_PlacedWordIsRunByTheNextCycle : decodeTableWord 24 0x123401 = some (.mar 0x34 0x12) := rfl

theorem witness_IcIsAdvancedOrJumps : jumpTaken (.je0 0x00) State.reset ∧ ¬jumpTaken (.je0 0x01) State.reset :=
  ⟨rfl, show ¬(0x00 : Byte) = 0x01 by decide⟩

theorem witness_OnlyTheListedInstructionsWrite :
    exec .nul State.reset = .next { State.reset with ic := 0x0101 } ∧ writesR0 .nul = false ∧ writesR1 .nul = false
      ∧ writesR2 .nul = false ∧ writesR3 .nul = false ∧ writesAr .nul = false ∧ (Instr.nul ≠ .hlt) :=
  ⟨rfl, rfl, rfl, rfl, rfl, rfl, by decide⟩

theorem witness_OnlyTheListedInstructionsRead :
    readsR0 .lr0 = false ∧ readsR1 .c01 = false ∧ readsR2 .c02 = false ∧ readsR3 .c03 = false ∧ readsAr (.mar 0x00 0x00) = false :=
  ⟨rfl, rfl, rfl, rfl, rfl⟩

theorem witness_OnlySicReadsIcAsData : Instr.jmp ≠ .sic := by decide

theorem witness_CyclesOnlySetTheLatches :
    let s := { State.reset with flt := ⟨true, 0x50, 0x0100⟩ }
    step s = .next (afterCycle s) ∧ s.flt.faulted = true ∧ mappedOpcode (s.load s.ic) = true := ⟨rfl, rfl, rfl⟩

theorem witness_OnlyStoresChangeMemory :
    exec .sr0 State.reset = .next ((State.reset.store 0x0000 0x00).advance 1) ∧ storesTo .sr0 State.reset 0x0001 = false := ⟨rfl, rfl⟩

theorem witness_WatchdogUpdateInEveryCycle :
    step State.reset = .next (afterCycle State.reset) ∧ fetchInstr State.reset = some .hlt
      ∧ storesTo .hlt (beginCycle State.reset) 0x0010 = false := ⟨rfl, rfl, rfl⟩

theorem witness_EveryStepKeepsTheMemoryForm : Inv State.reset ∧ step State.reset = .next (afterCycle State.reset) := ⟨rfl, rfl⟩

theorem witness_EveryTransactionKeepsTheMemoryForm :
    Inv State.reset ∧ transactAll params [.hostWrite 0x0020 0x10, .hostRead 0x0020] State.reset
      = .next (State.reset.store 0x0020 0x10, [.done, .byte 0x10]) := ⟨rfl, rfl⟩

/-- Both ends of each range around the brightness plane lie outside it, and the invariant holds of a state. -/
theorem witness_PowerOnState :
    ¬(0xE000 ≤ (0xDFFF : Word).toNat ∧ (0xDFFF : Word).toNat ≤ 0xEFFF) ∧ ¬(0xE000 ≤ (0xF000 : Word).toNat ∧ (0xF000 : Word).toNat ≤ 0xEFFF)
      ∧ Inv beforeReset := by decide

theorem witness_HardResetWritesTheGlyphLast :
    ¬(0xE000 ≤ (0x0000 : Word).toNat ∧ (0x0000 : Word).toNat ≤ 0xEFFF) ∧ ¬(0xE000 ≤ (0xFFFF : Word).toNat ∧ (0xFFFF : Word).toNat ≤ 0xEFFF) := by
  decide

theorem witness_GlyphWritesOnlyTheBrightnessPlane : ¬(0xE000 ≤ (0xDFFF : Word).toNat ∧ (0xDFFF : Word).toNat ≤ 0xEFFF) := by decide

/-- V-LD-2 and V-LD-3: the longest image that fits and the shortest that does not. -/
theorem witness_LoadImageCopiesIntoRam :
    (List.replicate 0xDF00 (0x00 : Byte)).length ≤ 0xDF00 ∧ 0xDF00 < (List.replicate 0xDF01 (0x00 : Byte)).length := by
  simp only [List.length_replicate]
  decide

theorem witness_HostWriteStoresOneByte : (0x0001 : Word) ≠ 0x0000 := by decide

theorem witness_OnlyResetsAndCyclesChangeRegisters :
    registerTxn .clearIo = false ∧ transact params .clearIo State.reset = .next (State.reset, .done) := ⟨rfl, rfl⟩

theorem witness_KeyboardWritesSixValues : (0x0021 : Word) ≠ 0x0020 := by decide

theorem witness_DriverIssuesNoCycleWhenStopped :
    mayCycle { State.reset with hlt := true } = false ∧ mayCycle { State.reset with flt := ⟨true, 0x50, 0x0100⟩ } = false
      ∧ mayCycle (driverRound params ⟨State.reset, [], []⟩).state = false := by decide

theorem witness_DriverServesARedrawOnce :
    (State.reset.store 0x000A 0x01).load 0x000A ≠ 0x00 ∧ State.reset.load 0x000A = 0x00 ∧ (0x0009 : Word) ≠ 0x000A := by decide

theorem witness_RunEndsHaltedOrFaulted :
    (Txn.engineReset ≠ .cycle) ∧ transact params .engineReset State.reset = .next (engineReset State.reset, .done) :=
  ⟨by decide, rfl⟩

/-- One run for each clause: running, ended, halted, faulted, and a host that only reads, whose run never ends. -/
theorem witness_RunEndsAtItsFirstBoundary :
    run params [.readRegs] State.reset = .next ⟨.running, State.reset, 1⟩
      ∧ run params [.cycle] State.reset = .next ⟨.halted, afterCycle State.reset, 1⟩
      ∧ (let s := put State.reset [0x50]; run params [.cycle] s = .next ⟨.faulted, afterCycle s, 1⟩) := ⟨rfl, rfl, rfl⟩

theorem witness_RunEndsAtItsFirstBoundary_forever : runsForever params (fun _ => .readRegs) State.reset := by
  have h : ∀ (xs : List Nat) (s : State), run params (xs.map fun _ => .readRegs) s = .next ⟨.running, s, xs.length⟩ := by
    intro xs
    induction xs with
    | nil => exact fun _ => rfl
    | cons x xs ih => exact fun s => congrArg oneMore (ih s)
  exact fun n => ⟨State.reset, by simpa using h (List.range n) State.reset⟩

theorem witness_PixelCodeIsTwoBrightPlusColor : 4096 ≤ 4096 := by decide

theorem witness_RenderIsAFunctionOfThePlanes :
    ∀ a : Word, 0xE000 ≤ a.toNat → State.reset.load a = ({ State.reset with hlt := true } : State).load a := fun _ _ => rfl

theorem witness_StoresToDrawRequestARedraw :
    ({ State.reset with ar := 0x000A } : State).ar = 0x000A ∧ ({ State.reset with ar := 0x0009 } : State).ar = 0x0009 := by decide

theorem witness_MarAndAarSetAr : let s := put State.reset [0x01, 0x34, 0x12]; s.load s.ic = 0x01 := by decide

theorem witness_SicStoresItsOwnAddress :
    (0x0002 : Word) ≠ effectiveAddress State.reset ∧ (0x0002 : Word) ≠ nextAddress (effectiveAddress State.reset) := by decide

theorem witness_LogicCombinesTheImmediate :
    (let s := put State.reset [0x22, 0xF0]; s.load s.ic = 0x22) ∧ (let s := put State.reset [0x23, 0x0F]; s.load s.ic = 0x23) := by decide

theorem witness_ImmediateLoadsTakeTheBytesInOrder :
    (let s := put State.reset [0x17, 0x05]; s.load s.ic = 0x17) ∧ (let s := put State.reset [0x18, 0xFE, 0x00]; s.load s.ic = 0x18) := by
  decide

theorem witness_StoresWriteAtAr :
    (0x0002 : Word) ≠ effectiveAddress State.reset ∧ (0x0002 : Word) ≠ nextAddress (effectiveAddress State.reset) := by decide

theorem witness_JumpsGoToAr : let s := put State.reset [0x24, 0x10]; s.load s.ic = 0x24 := by decide

end Sys2Proof.Tests
end

section
/-! PROOFS. What a Cycle and a transaction can do, once each: the memory an instruction leaves, the two branches of a step, the
boundary after a transaction, and the first transaction of a list. -/

namespace Sys2Proof.Machine

/-! ### One instruction -/

/-- The memory an instruction leaves: only SIC, SR0 and SRW store (20_memory R41). -/
def memAfter (i : Instr) (s : State) : Memory :=
  match i with
  | .sic => (s.storePair (effectiveAddress s) (lowByte s.ic) (highByte s.ic)).mem
  | .sr0 => (s.store (effectiveAddress s) s.r0).mem
  | .srw => (s.storePair (effectiveAddress s) s.r1 s.r2).mem
  | _ => s.mem

/-- Every instruction completes (42_alu R96), and the memory it leaves is `memAfter`. -/
theorem exec_completes (i : Instr) (s : State) : ∃ t, exec i s = .next t ∧ t.mem = memAfter i s := by
  cases i with
  | jz0 | jgw | jew | je0 _ => exact ⟨_, rfl, s.branch_mem _ _⟩
  | _ => exact ⟨_, rfl, rfl⟩

theorem State.store_wf {s : State} (a : Word) (v : Byte) (h : s.mem.wf = true) : (s.store a v).mem.wf = true :=
  memWrite_wf a v h

theorem State.storePair_wf {s : State} (a : Word) (lo hi : Byte) (h : s.mem.wf = true) :
    (s.storePair a lo hi).mem.wf = true :=
  State.store_wf _ hi (State.store_wf a lo h)

theorem memAfter_wf (i : Instr) {s : State} (h : s.mem.wf = true) : (memAfter i s).wf = true := by
  cases i with
  | sic | srw => exact State.storePair_wf _ _ _ h
  | sr0 => exact State.store_wf _ _ h
  | _ => exact h

theorem exec_wf {i : Instr} {s t : State} (hs : s.mem.wf = true) (h : exec i s = .next t) : t.mem.wf = true := by
  obtain ⟨u, hu, hmem⟩ := exec_completes i s
  cases h.symm.trans hu
  exact hmem ▸ memAfter_wf i hs

/-! ### One Cycle -/

/-- A Cycle that fetches an instruction runs it on the opened state (40_cycle R78 step 6). -/
theorem step_of_fetched {s : State} {i : Instr} (h : fetchInstr s = some i) : step s = exec i (beginCycle s) := by
  rw [step, h]

/-- A Cycle that fetches an unmapped opcode takes UnknownOpcode on the opened state (40_cycle R78 step 5). -/
theorem step_of_unmapped {s : State} (h : fetchInstr s = none) :
    step s = .next (takeUnknownOpcode (beginCycle s) (fetchOpcode s)) := by
  rw [step, h]

/-- Everything a Cycle can do: run the fetched instruction, or take UnknownOpcode. -/
theorem step_cases (s : State) :
    (∃ i, fetchInstr s = some i ∧ step s = exec i (beginCycle s))
      ∨ (fetchInstr s = none ∧ step s = .next (takeUnknownOpcode (beginCycle s) (fetchOpcode s))) := by
  cases h : fetchInstr s with
  | some i => exact .inl ⟨i, rfl, step_of_fetched h⟩
  | none => exact .inr ⟨rfl, step_of_unmapped h⟩

theorem step_completes (s : State) : ∃ t, step s = .next t := by
  rcases step_cases s with ⟨i, -, h⟩ | ⟨-, h⟩
  · obtain ⟨t, ht, -⟩ := exec_completes i (beginCycle s)
    exact ⟨t, h.trans ht⟩
  · exact ⟨_, h⟩

theorem step_wf {s t : State} (hs : s.mem.wf = true) (h : step s = .next t) : t.mem.wf = true := by
  rcases step_cases s with ⟨i, -, hstep⟩ | ⟨-, hstep⟩
  · exact exec_wf (beginCycle_wf hs) (hstep.symm.trans h)
  · cases h.symm.trans hstep
    exact beginCycle_wf hs

/-! ### What is fetched -/

/-- The filled slots of the table are the ranges of 30_encoding R74. -/
theorem isSome_slotOf : ∀ op : Byte, (slotOf op).isSome = mappedOpcode op := by decide

/-- A Cycle fetches no instruction exactly where its opcode byte is unmapped. -/
theorem fetchInstr_eq_none_iff (s : State) : fetchInstr s = none ↔ mappedOpcode (s.load s.ic) = false := by
  rw [← isSome_slotOf, Option.isSome_eq_false_iff, Option.isNone_iff_eq_none]
  exact Option.map_eq_none_iff

/-- The result of a Cycle is ok exactly where an instruction was fetched. -/
theorem cycleResult_eq_none_iff (s : State) : cycleResult s = none ↔ fetchInstr s ≠ none := by
  unfold cycleResult
  cases fetchInstr s <;> simp

/-! ### One transaction -/

/-- The Cycle transaction answers the step's next state and the result of the Cycle (00_scope R8). -/
theorem transact_cycle (p : Config.Params) {s t : State} (h : step s = .next t) :
    transact p .cycle s = .next (t, .cycle (cycleResult s)) := by
  rw [transact, h]

/-- InvalidAddress has a number, and no reply reports it (60_exceptions R139). -/
theorem replyCause_ne_invalidAddress (r : Reply) : replyCause r ≠ .invalidAddress := by
  cases r with
  | cycle raised => cases raised <;> simp [replyCause]
  | load result => cases result <;> simp [replyCause]
  | _ => simp [replyCause]

/-- The Pixel transaction, where it answers, leaves the state (48_rasterizer R131). -/
theorem transact_pixel_state {p : Config.Params} {i : Nat} {s t : State} {r : Reply}
    (h : transact p (.pixel i) s = .next (t, r)) : t = s := by
  rw [transact] at h
  split at h <;> cases h
  rfl

theorem clearAll_wf {s : State} (h : s.mem.wf = true) : (clearAll s).mem.wf = true :=
  clearIo_wf (clearRam_wf (clearVideo_wf h))

theorem softReset_wf {s : State} (h : s.mem.wf = true) : (softReset s).mem.wf = true :=
  engineReset_wf (clearVideo_wf (clearRam_wf h))

theorem hardReset_wf (p : Config.Params) {s : State} (h : s.mem.wf = true) : (hardReset p s).mem.wf = true :=
  writeGlyph_wf _ (engineReset_wf (clearVideo_wf (clearRam_wf (clearIo_wf h))))

theorem transact_wf {p : Config.Params} {x : Txn} {s t : State} {r : Reply} (hs : s.mem.wf = true)
    (h : transact p x s = .next (t, r)) : t.mem.wf = true := by
  cases x with
  | cycle =>
    obtain ⟨u, hu⟩ := step_completes s
    cases h.symm.trans (transact_cycle p hu)
    exact step_wf hs hu
  | engineReset => cases h; exact engineReset_wf hs
  | softReset => cases h; exact softReset_wf hs
  | hardReset => cases h; exact hardReset_wf p hs
  | clearVideo => cases h; exact clearVideo_wf hs
  | clearRam => cases h; exact clearRam_wf hs
  | clearIo => cases h; exact clearIo_wf hs
  | clearAll => cases h; exact clearAll_wf hs
  | writeGlyph g => cases h; exact writeGlyph_wf g hs
  | hostWrite a v => cases h; exact State.store_wf a v hs
  | loadImage image => cases h; exact loadImage_wf image hs
  | pixel i => exact transact_pixel_state h ▸ hs
  | hostRead _ | readRegs | render | shouldRedraw => cases h; exact hs

/-! ### A list of transactions -/

/-- A list of transactions is answered when its first one is, and the rest from the boundary that leaves (40_cycle R87). -/
theorem transactAll_cons_iff {p : Config.Params} {x : Txn} {xs : List Txn} {s u : State} {rs : List Reply} :
    transactAll p (x :: xs) s = .next (u, rs) ↔
      ∃ t r rs', transact p x s = .next (t, r) ∧ transactAll p xs t = .next (u, rs') ∧ rs = r :: rs' := by
  rw [transactAll]
  cases h : transact p x s with
  | next y =>
    obtain ⟨t, r⟩ := y
    cases hrest : transactAll p xs t <;> simp [hrest, Prod.ext_iff, eq_comm]
  | fault e => simp
  | refused e => simp

theorem transactAll_wf {p : Config.Params} {xs : List Txn} {s t : State} {rs : List Reply} (hs : s.mem.wf = true)
    (h : transactAll p xs s = .next (t, rs)) : t.mem.wf = true := by
  induction xs generalizing s rs with
  | nil => cases h; exact hs
  | cons x xs ih =>
    obtain ⟨u, r, rs', hfirst, hrest, -⟩ := transactAll_cons_iff.mp h
    exact ih (transact_wf hs hfirst) hrest

end Sys2Proof.Machine
end

section
/-! PROOFS. The statements of 00_scope. -/

open Sys2Proof Sys2Proof.Machine Sys2Proof.Claims

/-- Settles O25, by induction on the list: every transaction keeps the canonical form. -/
theorem everyTransactionKeepsTheMemoryForm : Obligations.EveryTransactionKeepsTheMemoryForm :=
  fun _ _ _ _ _ hs h => transactAll_wf hs h

/-- Settles O9: a step always has a next state, and it fetches an instruction exactly for a mapped opcode. -/
theorem cycleTransactionReportsTheFault : Obligations.CycleTransactionReportsTheFault := by
  refine ⟨fun p s => ?_, fun s => ?_, fun _ _ _ _ r _ => replyCause_ne_invalidAddress r⟩
  · obtain ⟨t, ht⟩ := step_completes s
    exact ⟨t, ht, transact_cycle p ht⟩
  · rw [cycleResult_eq_none_iff, ne_eq, fetchInstr_eq_none_iff, Bool.not_eq_false]
end

section
/-! PROOFS. What one instruction does, once: an effect on everything but IC, then the one write of IC (10_state R26). The facts
about what an instruction reads and writes (10_state R23 to R30) are facts about these two parts. -/

namespace Sys2Proof.Machine

open Sys2Proof.Claims

/-! ### An instruction is an effect and then a branch -/

/-- What an instruction does before it writes IC. -/
def effectOf (i : Instr) (s : State) : State :=
  match i with
  | .nul | .jmp | .jz0 | .jgw | .jew | .je0 _ => s
  | .mar b1 b2 => s.setAr (immediateWord b1 b2)
  | .sic => s.storePair (effectiveAddress s) (lowByte s.ic) (highByte s.ic)
  | .rar => s.setAr s.wordPair
  | .aar => s.setAr (addOffset s.ar s.r0)
  | .ir0 => s.setR0 (saturatingInc s.r0)
  | .a01 => s.setPair (pairAdd s.r0 s.r1 s.r2).1 (pairAdd s.r0 s.r1 s.r2).2
  | .dr0 => s.setR0 (saturatingDec s.r0)
  | .s01 => s.setPair (pairSub s.r0 s.r1 s.r2).1 (pairSub s.r0 s.r1 s.r2).2
  | .x12 => (s.setR1 s.r2).setR2 s.r1
  | .x01 => (s.setR0 s.r1).setR1 s.r0
  | .sr0 => s.store (effectiveAddress s) s.r0
  | .srw => s.storePair (effectiveAddress s) s.r1 s.r2
  | .lr0 => s.setR0 (s.load (effectiveAddress s))
  | .lrw => s.setPair (s.load (effectiveAddress s)) (s.load (nextAddress (effectiveAddress s)))
  | .taw => s.setPair (lowByte s.ar) (highByte s.ar)
  | .mr0 b1 => s.setR0 b1
  | .mrw b1 b2 => s.setPair b1 b2
  | .or0 b1 => s.setR0 (s.r0 ||| b1)
  | .an0 b1 => s.setR0 (s.r0 &&& b1)
  | .c01 => s.setR1 s.r0
  | .c02 => s.setR2 s.r0
  | .irw => s.setPair (pairInc s.r1 s.r2).1 (pairInc s.r1 s.r2).2
  | .drw => s.setPair (pairSub 1 s.r1 s.r2).1 (pairSub 1 s.r1 s.r2).2
  | .x03 => (s.setR0 s.r3).setR3 s.r0
  | .c03 => s.setR3 s.r0
  | .c30 => s.setR0 s.r3
  | .pl0 => s.setR0 (shiftLeft s.r0)
  | .pr0 => s.setR0 (shiftRight s.r0)
  | .hlt => s.setHlt true

/-- Whether an instruction ends by jumping, as the model tests it. -/
def jumps (i : Instr) (s : State) : Bool :=
  match i with
  | .jmp => true
  | .jz0 => testZero s.r0
  | .jgw => testGreater s.r1 s.r2
  | .jew => testEqual s.r1 s.r2
  | .je0 b1 => testEqual s.r0 b1
  | _ => false

/-- Every instruction is its effect followed by one write of IC (10_state R26). -/
theorem exec_eq_branch (i : Instr) (s : State) :
    exec i s = .next ((effectOf i s).branch (jumps i s) (BitVec.ofNat 16 (lengthOf i))) := by
  cases i <;> rfl

/-! ### The jump -/

theorem jumps_eq_true_iff (i : Instr) (s : State) : jumps i s = true ↔ jumpTaken i s := by
  cases i with
  | jz0 | jgw | jew | je0 _ => simp [jumps, jumpTaken, testZero, testGreater, testEqual]
  | _ => simp [jumps, jumpTaken]

theorem jumps_eq_false_of_readsAr {i : Instr} (h : readsAr i = false) (s : State) : jumps i s = false := by
  cases i with
  | jmp | jz0 | jgw | jew | je0 _ => cases h
  | _ => rfl

/-- A jump has no effect before its write of IC, so its target is the AR it starts with (45_control R121). -/
theorem effectOf_of_jumps {i : Instr} {s : State} (h : jumps i s = true) : effectOf i s = s := by
  cases i with
  | jmp | jz0 | jgw | jew | je0 _ => rfl
  | _ => cases h

theorem length_encode (i : Instr) : (encode i).length = lengthOf i := Nat.add_comm _ _

/-! ### What an effect leaves unchanged -/

@[simp] theorem effectOf_ic (i : Instr) (s : State) : (effectOf i s).ic = s.ic := by cases i <;> rfl

@[simp] theorem effectOf_curop (i : Instr) (s : State) : (effectOf i s).curop = s.curop := by cases i <;> rfl

@[simp] theorem effectOf_flt (i : Instr) (s : State) : (effectOf i s).flt = s.flt := by cases i <;> rfl

/-- HLT is set by the instruction HLT and by no other (10_state R28). -/
@[simp] theorem effectOf_hlt (i : Instr) (s : State) : (effectOf i s).hlt = (s.hlt || decide (i = .hlt)) := by
  cases i with
  | hlt => simp [effectOf]
  | _ => exact (Bool.or_false _).symm

theorem effectOf_r0 {i : Instr} (h : writesR0 i = false) (s : State) : (effectOf i s).r0 = s.r0 := by
  cases i with
  | ir0 | dr0 | x01 | lr0 | mr0 _ | or0 _ | an0 _ | x03 | c30 | pl0 | pr0 => cases h
  | _ => rfl

theorem effectOf_r1 {i : Instr} (h : writesR1 i = false) (s : State) : (effectOf i s).r1 = s.r1 := by
  cases i with
  | a01 | s01 | x12 | x01 | lrw | taw | mrw _ _ | c01 | irw | drw => cases h
  | _ => rfl

theorem effectOf_r2 {i : Instr} (h : writesR2 i = false) (s : State) : (effectOf i s).r2 = s.r2 := by
  cases i with
  | a01 | s01 | x12 | lrw | taw | mrw _ _ | c02 | irw | drw => cases h
  | _ => rfl

theorem effectOf_r3 {i : Instr} (h : writesR3 i = false) (s : State) : (effectOf i s).r3 = s.r3 := by
  cases i with
  | x03 | c03 => cases h
  | _ => rfl

theorem effectOf_ar {i : Instr} (h : writesAr i = false) (s : State) : (effectOf i s).ar = s.ar := by
  cases i with
  | mar _ _ | rar | aar => cases h
  | _ => rfl

/-! ### What an effect and a jump do not read -/

/-- An instruction whose jump test and effect do not depend on a register ends alike whatever that register holds. -/
theorem exec_of_independent {i : Instr} {s : State} {set : State → State} {writes : Bool}
    (hjump : jumps i (set s) = jumps i s)
    (heffect : effectOf i (set s) = if writes then effectOf i s else set (effectOf i s))
    (hbranch : ∀ (t : State) (n : Word), (set t).branch (jumps i s) n = set (t.branch (jumps i s) n)) :
    exec i (set s) = mapNext (fun t => if writes then t else set t) (exec i s) := by
  rw [exec_eq_branch, exec_eq_branch, hjump, heffect]
  cases writes with
  | true => rfl
  | false => exact congrArg Host.Outcome.next (hbranch _ _)

theorem exec_setR0 {i : Instr} (h : readsR0 i = false) (s : State) (v : Byte) :
    exec i (s.setR0 v) = mapNext (fun t => if writesR0 i then t else t.setR0 v) (exec i s) := by
  refine exec_of_independent (set := (State.setR0 · v)) ?_ ?_ fun t n => by cases jumps i s <;> rfl
  · cases i with
    | jz0 | je0 _ => cases h
    | _ => rfl
  · cases i with
    | aar | ir0 | a01 | dr0 | s01 | x01 | sr0 | or0 _ | an0 _ | c01 | c02 | x03 | c03 | pl0 | pr0 => cases h
    | _ => rfl

theorem exec_setR1 {i : Instr} (h : readsR1 i = false) (s : State) (v : Byte) :
    exec i (s.setR1 v) = mapNext (fun t => if writesR1 i then t else t.setR1 v) (exec i s) := by
  refine exec_of_independent (set := (State.setR1 · v)) ?_ ?_ fun t n => by cases jumps i s <;> rfl
  · cases i with
    | jgw | jew => cases h
    | _ => rfl
  · cases i with
    | rar | a01 | s01 | x12 | x01 | srw | irw | drw => cases h
    | _ => rfl

theorem exec_setR2 {i : Instr} (h : readsR2 i = false) (s : State) (v : Byte) :
    exec i (s.setR2 v) = mapNext (fun t => if writesR2 i then t else t.setR2 v) (exec i s) := by
  refine exec_of_independent (set := (State.setR2 · v)) ?_ ?_ fun t n => by cases jumps i s <;> rfl
  · cases i with
    | jgw | jew => cases h
    | _ => rfl
  · cases i with
    | rar | a01 | s01 | x12 | srw | irw | drw => cases h
    | _ => rfl

theorem exec_setR3 {i : Instr} (h : readsR3 i = false) (s : State) (v : Byte) :
    exec i (s.setR3 v) = mapNext (fun t => if writesR3 i then t else t.setR3 v) (exec i s) := by
  refine exec_of_independent (set := (State.setR3 · v)) ?_ ?_ fun t n => by cases jumps i s <;> rfl
  · cases i <;> rfl
  · cases i with
    | x03 | c30 => cases h
    | _ => rfl

/-- No instruction that does not read AR jumps, so its write of IC does not depend on AR either. -/
theorem exec_setAr {i : Instr} (h : readsAr i = false) (s : State) (w : Word) :
    exec i (s.setAr w) = mapNext (fun t => if writesAr i then t else t.setAr w) (exec i s) := by
  have hjump : ∀ t, jumps i t = false := jumps_eq_false_of_readsAr h
  refine exec_of_independent (set := (State.setAr · w)) ?_ ?_ fun t n => by rw [hjump]; rfl
  · rw [hjump, hjump]
  · cases i with
    | sic | aar | sr0 | srw | lr0 | lrw | taw => cases h
    | _ => rfl

theorem jumps_setIc (i : Instr) (s : State) (v : Word) : jumps i (s.setIc v) = jumps i s := by cases i <;> rfl

/-- Before its write of IC, every instruction but SIC does the same wherever it stands (10_state R27). -/
theorem effectOf_setIc {i : Instr} (h : i ≠ .sic) (s : State) (v : Word) :
    effectOf i (s.setIc v) = (effectOf i s).setIc v := by
  cases i with
  | sic => exact absurd rfl h
  | _ => rfl

/-- A branch changes IC alone. -/
theorem State.branch_setIc (s : State) (v : Word) (b : Bool) (n : Word) :
    (s.setIc v).branch b n = (s.branch b n).setIc ((s.setIc v).branch b n).ic := by
  cases b <;> rfl

end Sys2Proof.Machine

/-! ### The opcode of the fetched instruction -/

namespace Sys2Proof

theorem opcodeOf_fillSlot (b1 b2 : Byte) : ∀ r ∈ opcodeTable, opcodeOf (fillSlot b1 b2 r.slot) = r.opcode := by
  simp [opcodeTable, opcodeRows0, opcodeRows1, opcodeRows2, fillSlot, opcodeOf]

/-- The decoder reads an instruction only from its own opcode byte (30_encoding R72, R75). -/
theorem opcodeOf_of_decodeOp {op b1 b2 : Byte} {i : Instr} (h : decodeOp op b1 b2 = some i) : opcodeOf i = op := by
  simp only [decodeOp, slotOf, Option.map_map, Option.map_eq_some_iff] at h
  obtain ⟨r, hfind, rfl⟩ := h
  calc opcodeOf (fillSlot b1 b2 r.slot)
      = r.opcode := opcodeOf_fillSlot b1 b2 r (List.mem_of_find?_eq_some hfind)
    _ = op := by simpa using List.find?_some hfind

theorem opcodeOf_eq_hlt_iff (i : Instr) : opcodeOf i = 0xFF ↔ i = .hlt := by cases i <;> simp [opcodeOf]

end Sys2Proof

/-! ### The latches and the host -/

namespace Sys2Proof.Machine

open Sys2Proof.Claims

theorem fetchInstr_eq_hlt_iff {s : State} {i : Instr} (h : fetchInstr s = some i) : i = .hlt ↔ s.load s.ic = 0xFF := by
  rw [← opcodeOf_eq_hlt_iff, opcodeOf_of_decodeOp h]
  rfl

/-- A Cycle that runs an instruction: HLT is set by HLT alone and FLT is kept (10_state R28, R30). -/
theorem latches_of_fetched {s t : State} {i : Instr} (hfetch : fetchInstr s = some i) (h : step s = .next t) :
    t.hlt = (s.hlt || decide (s.load s.ic = 0xFF)) ∧ t.flt = s.flt := by
  rw [step_of_fetched hfetch, exec_eq_branch] at h
  cases h
  simp [fetchInstr_eq_hlt_iff hfetch]

/-- A Cycle that takes UnknownOpcode: its opcode is not HLT's, HLT is kept and FLT records the fault (60_exceptions R138). -/
theorem latches_of_unmapped {s t : State} (hfetch : fetchInstr s = none) (h : step s = .next t) :
    s.load s.ic ≠ 0xFF ∧ t.hlt = s.hlt ∧ t.flt = ⟨true, s.load s.ic, s.ic⟩ := by
  rw [step_of_unmapped hfetch] at h
  cases h
  refine ⟨fun hop => ?_, rfl, rfl⟩
  have hmap := (fetchInstr_eq_none_iff s).mp hfetch
  rw [hop] at hmap
  exact absurd hmap (by decide)

/-- A load changes memory and nothing else (70_reset R157). -/
theorem loadImage_eq (image : Option (List Byte)) (s : State) : loadImage image s = s.setMem (loadImage image s).mem := by
  rcases loadImage_cases image s with ⟨-, e⟩ | ⟨bytes, -, -, -, e⟩
  · rw [e]; rfl
  · rw [e]; rfl

/-- A transaction other than a Cycle or a reset changes at most memory (10_state R34). -/
theorem transact_eq_setMem {p : Config.Params} {x : Txn} {s t : State} {r : Reply} (hx : registerTxn x = false)
    (h : transact p x s = .next (t, r)) : t = s.setMem t.mem := by
  cases x with
  | cycle | engineReset | softReset | hardReset => cases hx
  | writeGlyph g => cases h; exact writeGlyph_eq g s
  | loadImage image => cases h; exact loadImage_eq image s
  | pixel i => cases transact_pixel_state h; rfl
  | _ => cases h; rfl

end Sys2Proof.Machine
end

section
/-! PROOFS. The statements of 10_state. -/

open Sys2Proof Sys2Proof.Machine Sys2Proof.Claims

/-- Settles O16: an instruction is its effect followed by a branch, and an effect leaves IC and a jump's AR alone. -/
theorem icIsAdvancedOrJumps : Obligations.IcIsAdvancedOrJumps := by
  intro i s
  refine ⟨_, exec_eq_branch i s, fun hj => ?_, fun hj => ?_⟩
  · have hjump := (jumps_eq_true_iff i s).mpr hj
    simp [hjump, effectOf_of_jumps hjump]
  · have hjump := mt (jumps_eq_true_iff i s).mp hj
    simp [hjump, length_encode]

/-- Settles O17, register by register, from what an effect leaves unchanged; the branch after it changes only IC. -/
theorem onlyTheListedInstructionsWrite : Obligations.OnlyTheListedInstructionsWrite := by
  intro i s t h
  rw [exec_eq_branch] at h
  cases h
  simp +contextual [effectOf_r0, effectOf_r1, effectOf_r2, effectOf_r3, effectOf_ar]

/-- Settles O18, register by register: neither the effect nor the jump test reads a register it is not listed for. -/
theorem onlyTheListedInstructionsRead : Obligations.OnlyTheListedInstructionsRead :=
  fun _ s v w => ⟨fun h => exec_setR0 h s v, fun h => exec_setR1 h s v, fun h => exec_setR2 h s v,
    fun h => exec_setR3 h s v, fun h => exec_setAr h s w⟩

/-- Settles O19: no jump test and no effect but SIC's reads IC, and the branch after it changes only IC. -/
theorem onlySicReadsIcAsData : Obligations.OnlySicReadsIcAsData := by
  intro i s v hi
  refine ⟨_, _, exec_eq_branch i s, exec_eq_branch i (s.setIc v), ?_⟩
  rw [effectOf_setIc hi, jumps_setIc]
  exact State.branch_setIc _ _ _ _

/-- Settles O21, by the two things a Cycle can do: run an instruction or take UnknownOpcode. -/
theorem cyclesOnlySetTheLatches : Obligations.CyclesOnlySetTheLatches := by
  intro s t h
  cases hfetch : fetchInstr s with
  | some i =>
    obtain ⟨hhlt, hflt⟩ := latches_of_fetched hfetch h
    exact ⟨hhlt, fun hf => hflt ▸ hf, fun _ => hflt⟩
  | none =>
    obtain ⟨hop, hhlt, hflt⟩ := latches_of_unmapped hfetch h
    refine ⟨by rw [hhlt, decide_eq_false hop, Bool.or_false], fun _ => hflt ▸ rfl, fun hmap => ?_⟩
    exact absurd ((fetchInstr_eq_none_iff s).mp hfetch) (by simp [hmap])

/-- Settles O36, by cases on the transaction: each that is not a Cycle or a reset replaces at most the memory. -/
theorem onlyResetsAndCyclesChangeRegisters : Obligations.OnlyResetsAndCyclesChangeRegisters :=
  fun _ _ _ _ _ hx h => transact_eq_setMem hx h

/-- Settles O26: the empty memory is canonical, and writing a glyph keeps the canonical form. -/
theorem resetStateMeetsTheInvariant : Obligations.ResetStateMeetsTheInvariant :=
  ⟨reset_mem_wf, rfl, fun g _ _ _ => writeGlyph_wf g reset_mem_wf⟩
end

section
/-! PROOFS. Memory, once each: the bytes an instruction stores and leaves, what the next Cycle fetches from them, and what the
host's clears and glyph leave. -/

namespace Sys2Proof.Machine

open Sys2Proof.Claims

/-! ### The bytes an instruction leaves -/

/-- The bytes an effect leaves: those the instruction stores, and every other as before (20_memory R41). -/
theorem load_effectOf (i : Instr) (s : State) (a : Word) :
    (effectOf i s).load a = (storedByte i s a).getD (s.load a) := by
  cases i with
  | sr0 =>
    rw [effectOf, storedByte, State.load_store]
    split_ifs <;> rfl
  | sic | srw =>
    rw [effectOf, storedByte, State.load_storePair]
    split_ifs <;> rfl
  | _ => rfl

theorem load_of_exec {i : Instr} {s t : State} (h : exec i s = .next t) (a : Word) :
    t.load a = (storedByte i s a).getD (s.load a) := by
  rw [exec_eq_branch] at h
  cases h
  rw [State.load_branch, load_effectOf]

theorem storedByte_eq_none {i : Instr} {s : State} {a : Word} (h : storesTo i s a = false) : storedByte i s a = none := by
  cases i with
  | sr0 => simpa [storesTo, storedByte] using h
  | sic | srw =>
    obtain ⟨hlow, hhigh⟩ : a ≠ effectiveAddress s ∧ a ≠ nextAddress (effectiveAddress s) := by simpa [storesTo] using h
    simp [storedByte, hlow, hhigh]
  | _ => rfl

theorem storedByte_sr0 {s : State} {a : Word} (h : a = s.ar) : storedByte .sr0 s a = some s.r0 := if_pos h

/-! ### A pair read back -/

theorem State.load_storePair_low (s : State) (a : Word) (lo hi : Byte) : (s.storePair a lo hi).load a = lo := by
  simp [State.load_storePair, (nextAddress_ne a).symm]

theorem State.load_storePair_high (s : State) (a : Word) (lo hi : Byte) :
    (s.storePair a lo hi).load (nextAddress a) = hi := by
  simp [State.load_storePair]

/-- LRW reads back a pair stored where AR points, wherever IC has gone since (20_memory R46). -/
theorem exec_lrw_of_storePair (s : State) (lo hi : Byte) (n : Word) :
    ∃ u, exec .lrw ((s.storePair (effectiveAddress s) lo hi).advance n) = .next u ∧ u.r1 = lo ∧ u.r2 = hi :=
  ⟨_, rfl, State.load_storePair_low s s.ar lo hi, State.load_storePair_high s s.ar lo hi⟩

/-! ### What the next Cycle fetches -/

theorem load_beginCycle_eq_afterWatchdog (s : State) (a : Word) : (beginCycle s).load a = afterWatchdog s a := by
  rw [load_beginCycle, afterWatchdog, Config.wdDecAddr, Config.wdIncAddr]
  by_cases hdec : a = 0x0011
  · simp [hdec]
  · simp only [hdec, if_false]

/-- A Cycle decodes the opcode byte as it stands with the two bytes after it as they stand after the watchdog update
(40_cycle R78, R81). -/
theorem fetchInstr_eq_decodeOp (s : State) :
    fetchInstr s = decodeOp (s.load s.ic) (afterWatchdog s (s.ic + 1)) (afterWatchdog s (s.ic + 2)) := by
  rw [← load_beginCycle_eq_afterWatchdog, ← load_beginCycle_eq_afterWatchdog]
  rfl

/-- An opcode without operand bytes selects its one-byte slot (30_encoding R64, R72). -/
theorem slotOf_opcodeOf {i : Instr} (h : i.immediates = []) : slotOf (opcodeOf i) = some (.f1 i) := by
  cases i with
  | mar _ _ | mr0 _ | mrw _ _ | or0 _ | an0 _ | je0 _ => cases h
  | _ => rfl

theorem fetchInstr_of_opcode {s : State} {i : Instr} (hop : s.load s.ic = opcodeOf i) (himm : i.immediates = []) :
    fetchInstr s = some i := by
  rw [fetchInstr_eq_decodeOp, decodeOp, hop, slotOf_opcodeOf himm]
  rfl

theorem curop_of_exec {i : Instr} {s t : State} (h : exec i s = .next t) : t.curop = s.curop := by
  rw [exec_eq_branch] at h
  cases h
  rw [State.branch_curop, effectOf_curop]

/-- Every Cycle runs what memory holds at IC and after it, and takes UnknownOpcode on an unmapped opcode (20_memory R61). -/
theorem nextCycleRuns_load (t : State) :
    NextCycleRuns t (t.load t.ic) (afterWatchdog t (t.ic + 1)) (afterWatchdog t (t.ic + 2)) := by
  rcases step_cases t with ⟨i, hfetch, hstep⟩ | ⟨hfetch, hstep⟩
  · obtain ⟨u, hu, -⟩ := exec_completes i (beginCycle t)
    rw [fetchInstr_eq_decodeOp] at hfetch
    refine ⟨u, hstep.trans hu, curop_of_exec hu, fun j hj => ?_, fun hslot => ?_⟩
    · cases hfetch.symm.trans hj
      exact hu
    · simp [decodeOp, hslot] at hfetch
  · rw [fetchInstr_eq_decodeOp] at hfetch
    exact ⟨_, hstep, rfl, fun j hj => absurd (hfetch.symm.trans hj) nofun, fun _ => rfl⟩

/-! ### A Cycle that stores, and the next one -/

/-- The bytes a Cycle leaves: those its instruction stores, over the bytes after the watchdog update. -/
theorem load_of_step {s t : State} {i : Instr} (hfetch : fetchInstr s = some i) (h : step s = .next t) (a : Word) :
    t.load a = (storedByte i (beginCycle s) a).getD (afterWatchdog s a) := by
  rw [step_of_fetched hfetch] at h
  rw [load_of_exec h, load_beginCycle_eq_afterWatchdog]

/-- A Cycle of a one-byte instruction that does not jump leaves IC at the next byte, and every byte it stored in place. -/
theorem step_of_opcode {s : State} {i : Instr} (hop : s.load s.ic = opcodeOf i) (himm : i.immediates = [])
    (hjump : jumps i (beginCycle s) = false) :
    ∃ t, step s = .next t ∧ t.ic = s.ic + 1 ∧ ∀ a w, storedByte i (beginCycle s) a = some w → t.load a = w := by
  have hfetch := fetchInstr_of_opcode hop himm
  have hstep := (step_of_fetched hfetch).trans (exec_eq_branch i (beginCycle s))
  refine ⟨_, hstep, by simp [hjump, lengthOf, himm], fun a w hw => ?_⟩
  rw [load_of_step hfetch hstep, hw]
  rfl

/-- A Cycle that stores into the byte after its own one-byte instruction and does not jump is followed by one that takes the
stored byte as its opcode (70_reset R160). -/
theorem step_stores_next_opcode {s : State} {i : Instr} {v : Byte} (hop : s.load s.ic = opcodeOf i)
    (himm : i.immediates = []) (hjump : jumps i (beginCycle s) = false)
    (hstored : storedByte i (beginCycle s) (s.ic + 1) = some v) :
    ∃ t, step s = .next t ∧ t.ic = s.ic + 1 ∧ (∀ a w, storedByte i (beginCycle s) a = some w → t.load a = w)
      ∧ NextCycleRuns t v (afterWatchdog t (t.ic + 1)) (afterWatchdog t (t.ic + 2)) := by
  obtain ⟨t, hstep, hic, hload⟩ := step_of_opcode hop himm hjump
  have hnext : t.load t.ic = v := by rw [hic, hload _ _ hstored]
  exact ⟨t, hstep, hic, hload, hnext ▸ nextCycleRuns_load t⟩

/-- A pair stored at the byte after its own instruction (SRW and SIC alike): its low byte is the next opcode, its high byte
stands after it. -/
theorem step_stores_pair_after_itself {s : State} {i : Instr} {lo hi : Byte} (hop : s.load s.ic = opcodeOf i)
    (himm : i.immediates = []) (hjump : jumps i (beginCycle s) = false) (har : s.ar = s.ic + 1)
    (hstored : ∀ a, storedByte i (beginCycle s) a =
      if a = nextAddress s.ar then some hi else if a = s.ar then some lo else none) :
    ∃ t, step s = .next t ∧ t.ic = s.ar ∧ t.load (t.ic + 1) = hi
      ∧ NextCycleRuns t lo (afterWatchdog t (t.ic + 1)) (afterWatchdog t (t.ic + 2)) := by
  have hlow : storedByte i (beginCycle s) (s.ic + 1) = some lo := by
    rw [hstored, ← har, if_neg (nextAddress_ne s.ar).symm, if_pos rfl]
  obtain ⟨t, ht, hic, hload, hruns⟩ := step_stores_next_opcode hop himm hjump hlow
  have hhigh : t.ic + 1 = nextAddress s.ar := by rw [hic, har, nextAddress]
  exact ⟨t, ht, hic.trans har.symm, hload _ _ (by rw [hstored, if_pos hhigh]), hruns⟩

/-- A pair stored over its own instruction (SRW and SIC alike): its high byte is the next opcode. -/
theorem step_stores_pair_over_itself {s : State} {i : Instr} {lo hi : Byte} (hop : s.load s.ic = opcodeOf i)
    (himm : i.immediates = []) (hjump : jumps i (beginCycle s) = false) (har : s.ar = s.ic)
    (hstored : ∀ a, storedByte i (beginCycle s) a =
      if a = nextAddress s.ar then some hi else if a = s.ar then some lo else none) :
    ∃ t, step s = .next t ∧ t.ic = s.ar + 1
      ∧ NextCycleRuns t hi (afterWatchdog t (t.ic + 1)) (afterWatchdog t (t.ic + 2)) := by
  have hhigh : storedByte i (beginCycle s) (s.ic + 1) = some hi := by
    rw [hstored, har, nextAddress, if_pos rfl]
  obtain ⟨t, ht, hic, -, hruns⟩ := step_stores_next_opcode hop himm hjump hhigh
  exact ⟨t, ht, har ▸ hic, hruns⟩

/-! ### The clears and the glyph -/

theorem load_clearAll (s : State) (a : Word) :
    (clearAll s).load a = if 0x0100 ≤ a.toNat ∧ a.toNat ≤ 0xDFFF then 0xFF else 0x00 := by
  rw [clearAll, load_clearIo, load_clearRam, load_clearVideo]
  by_cases hio : a.toNat ≤ 0x00FF
  · have hram : ¬0x0100 ≤ a.toNat := by omega
    simp [hio, hram]
  · by_cases hram : 0x0100 ≤ a.toNat ∧ a.toNat ≤ 0xDFFF
    · simp only [hio, hram, and_self, if_true, if_false]
    · have hvideo : 0xE000 ≤ a.toNat := by omega
      simp only [hio, hram, hvideo, if_true, if_false]

theorem load_writeGlyph_brightness (g : Config.Glyph) (s : State) (k : Fin 4096) :
    (writeGlyph g s).load (brightnessAddr k) = glyphByte g k (s.load (brightnessAddr k)) := by
  induction g generalizing s with
  | nil => rfl
  | cons w g ih =>
    rw [writeGlyph_cons, ih, State.load_store]
    by_cases h : w.1 = k
    · simp [glyphByte, h]
    · have hne : brightnessAddr k ≠ brightnessAddr w.1 := fun e => h (brightnessAddr_inj e).symm
      simp [glyphByte, h, hne]

theorem ne_brightnessAddr {a : Word} (h : ¬(0xE000 ≤ a.toNat ∧ a.toNat ≤ 0xEFFF)) (i : Fin 4096) : a ≠ brightnessAddr i := by
  rintro rfl
  have := i.isLt
  rw [toNat_brightnessAddr] at h
  omega

end Sys2Proof.Machine
end

section
/-! PROOFS. The statements of 20_memory. -/

open Sys2Proof Sys2Proof.Machine Sys2Proof.Claims

/-- Settles O24: opening a Cycle, every instruction and the taking of UnknownOpcode keep the canonical form. -/
theorem everyStepKeepsTheMemoryForm : Obligations.EveryStepKeepsTheMemoryForm :=
  fun _ _ hs h => step_wf hs h

/-- Settles O14: a Cycle runs what memory holds, and memory holds what the Cycle or the host before it stored. Each special
clause computes the byte stored where the next Cycle looks. -/
theorem storeIntoCodeIsSeenByTheNextFetch : Obligations.StoreIntoCodeIsSeenByTheNextFetch := by
  refine ⟨fun s i hfetch => ?_, fun s hop har => ?_,
    fun s hop har => step_stores_pair_after_itself (i := .srw) hop rfl rfl har fun _ => rfl,
    fun s hop har => step_stores_pair_over_itself (i := .srw) hop rfl rfl har fun _ => rfl,
    fun s hop har => step_stores_pair_after_itself (i := .sic) hop rfl rfl har fun _ => rfl,
    fun s hop har => step_stores_pair_over_itself (i := .sic) hop rfl rfl har fun _ => rfl,
    fun s hop har => ?_, fun p a v s => ?_⟩
  · obtain ⟨t, ht⟩ := step_completes s
    exact ⟨t, ht, load_of_step hfetch ht, nextCycleRuns_load t⟩
  · obtain ⟨t, ht, hic, -, hruns⟩ := step_stores_next_opcode (i := .sr0) hop rfl rfl (storedByte_sr0 har.symm)
    exact ⟨t, ht, hic.trans har.symm, hruns⟩
  · obtain ⟨t, ht, hic, hload⟩ := step_of_opcode (i := .sr0) hop rfl rfl
    have hoperand : t.ic + 1 = s.ar := by rw [hic, har, BitVec.add_assoc]; rfl
    exact ⟨t, ht, hload _ _ (storedByte_sr0 hoperand), nextCycleRuns_load t⟩
  · exact ⟨_, rfl, fun b => State.load_store s a b v, nextCycleRuns_load _⟩

/-- Settles O22: an instruction leaves what it stores over what was there, and it stores nothing outside `storesTo`. -/
theorem onlyStoresChangeMemory : Obligations.OnlyStoresChangeMemory := by
  intro i s t h a ha
  rw [load_of_exec h, storedByte_eq_none ha]
  rfl

/-- Settles O31, from what each clear leaves in every byte. -/
theorem clearsFillTheirRegions : Obligations.ClearsFillTheirRegions :=
  fun _ s => ⟨⟨_, rfl, rfl, load_clearVideo s⟩, ⟨_, rfl, rfl, load_clearRam s⟩, ⟨_, rfl, rfl, load_clearIo s⟩,
    ⟨_, rfl, rfl, load_clearAll s⟩⟩

/-- Settles O32, by induction on the glyph: every write of it goes to one brightness byte. -/
theorem glyphWritesOnlyTheBrightnessPlane : Obligations.GlyphWritesOnlyTheBrightnessPlane :=
  fun _ g s => ⟨_, rfl, writeGlyph_eq g s, load_writeGlyph_brightness g s,
    fun _ ha => load_writeGlyph_other g s (ne_brightnessAddr ha)⟩

/-- Settles O59: SIC and SRW store a pair at AR, and LRW reads it back. -/
theorem lrwReadsBackSicAndSrw : Obligations.LrwReadsBackSicAndSrw := by
  intro s
  obtain ⟨u, hu, hlow, hhigh⟩ := exec_lrw_of_storePair s (lowByte s.ic) (highByte s.ic) 1
  obtain ⟨u', hu'⟩ := exec_lrw_of_storePair s s.r1 s.r2 1
  refine ⟨⟨_, u, rfl, hu, ?_⟩, _, u', rfl, hu'⟩
  rw [hlow, hhigh, ← toNat_pairWord, pairWord_high_low]

/-- Settles O34, from the read-after-write laws. -/
theorem hostWriteStoresOneByte : Obligations.HostWriteStoresOneByte :=
  fun _ a v s => ⟨_, rfl, rfl, s.load_store_same a v, fun _ hb => s.load_store_other v hb⟩

/-- Settles O35: each reading transaction answers from the state it is given, and hands it back. -/
theorem readingTransactionsChangeNothing : Obligations.ReadingTransactionsChangeNothing := by
  refine fun p s => ⟨fun _ => rfl, rfl, rfl, ?_⟩
  rw [transact, shouldRedraw, decide_not]
  rfl

/-- Settles O38: six constants, and a keyboard write is a host write at 0x0020. -/
theorem keyboardWritesSixValues : Obligations.KeyboardWritesSixValues := by
  refine ⟨fun k => ?_, by decide, fun p k s => ⟨?_, hostWriteStoresOneByte p Config.keyAddr (keyByte k) s⟩⟩
  · cases k <;> decide
  · cases k <;> rfl
end

section
/-! PROOFS. The decoder and the encoder, once each: the bytes a filled slot of the opcode table gives and takes, what an empty slot
does to the decoder and to a Cycle, and what a source line stands for. -/

namespace Sys2Proof

/-! ### Filled slots (30_encoding R64, R72) -/

/-- The bytes of a slot's instruction: the opcode, then as many operand bytes as its format has. -/
theorem encode_fillSlot (b1 b2 : Byte) :
    ∀ r ∈ opcodeTable, encode (fillSlot b1 b2 r.slot) = r.opcode :: [b1, b2].take (slotLength r.slot - 1) := by
  rw [← List.forall_iff_forall_mem]
  and_intros <;> rfl

theorem encode_of_slotOf {op : Byte} {slot : Slot} (h : slotOf op = some slot) (b1 b2 : Byte) :
    encode (fillSlot b1 b2 slot) = op :: [b1, b2].take (slotLength slot - 1) := by
  obtain ⟨r, hfind, rfl⟩ := Option.map_eq_some_iff.mp h
  obtain rfl : r.opcode = op := by simpa using List.find?_some hfind
  exact encode_fillSlot b1 b2 r (List.mem_of_find?_eq_some hfind)

theorem decode_encode (i : Instr) (rest : List Byte) : decode (encode i ++ rest) = .ok (i, rest) := by
  cases i <;> rfl

/-- The decoder takes exactly the bytes that the encoder gives: one, two or three by the slot's format. -/
theorem eq_encode_append_of_decode {bs rest : List Byte} {i : Instr} (h : decode bs = .ok (i, rest)) :
    bs = encode i ++ rest := by
  unfold decode at h
  split at h
  · cases h
  · split at h
    -- the three answers: formats F1, F2 and F3
    case h_2 hslot => cases h; exact congrArg (· ++ rest) (encode_of_slotOf hslot 0 0).symm
    case h_3 hslot => cases h; exact congrArg (· ++ rest) (encode_of_slotOf hslot _ 0).symm
    case h_4 hslot => cases h; exact congrArg (· ++ rest) (encode_of_slotOf hslot _ _).symm
    all_goals cases h

/-! ### Empty slots (30_encoding R74) -/

theorem isNone_slotOf (op : Byte) : (slotOf op).isNone = !mappedOpcode op := by
  rw [← Machine.isSome_slotOf, Option.not_isSome]

theorem slotOf_eq_none_iff (op : Byte) : slotOf op = none ↔ mappedOpcode op = false := by
  rw [← Option.isNone_iff_eq_none, isNone_slotOf, Bool.not_eq_true']

theorem mappedOpcode_eq_false_iff (op : Byte) : mappedOpcode op = false ↔
    (0x0A ≤ op.toNat ∧ op.toNat ≤ 0x0F) ∨ (0x1A ≤ op.toNat ∧ op.toNat ≤ 0x1F) ∨ (0x2E ≤ op.toNat ∧ op.toNat ≤ 0xFE) := by
  have := op.isLt
  simp only [mappedOpcode, Bool.or_eq_false_iff, Bool.and_eq_false_iff, decide_eq_false_iff_not]
  omega

/-- There are 221 empty slots. -/
theorem length_unmapped : ((List.range 256).filter fun n => (slotOf (BitVec.ofNat 8 n)).isNone).length = 221 := by
  simp only [isNone_slotOf]
  rfl

theorem decode_of_unmapped {op : Byte} (h : slotOf op = none) (rest : List Byte) :
    decode (op :: rest) = .error (.unmapped op) := by
  simp [decode, h]

/-! ### Source lines (30_encoding R76) -/

/-- A line is assembled by filling its opcode's slot. -/
theorem assemble_of_wf {l : SourceLine} (h : l.wf = true) : ∃ b1 b2, assemble l = decodeOp l.opcode b1 b2 := by
  rw [assemble, if_pos h]
  split <;> exact ⟨_, _, rfl⟩

theorem mappedOpcode_of_wf {l : SourceLine} (h : l.wf = true) : mappedOpcode l.opcode = true := by
  obtain ⟨⟨hop, -⟩, -⟩ : (l.opcodeOk = true ∧ l.countOk = true) ∧ l.rangeOk = true := by
    simpa only [SourceLine.wf, Bool.and_eq_true] using h
  exact hop

theorem exists_decodeOp_of_mapped {op : Byte} (h : mappedOpcode op = true) (b1 b2 : Byte) :
    ∃ i, decodeOp op b1 b2 = some i := by
  rw [← Machine.isSome_slotOf, Option.isSome_iff_exists] at h
  obtain ⟨slot, hslot⟩ := h
  exact ⟨fillSlot b1 b2 slot, by rw [decodeOp, hslot]; rfl⟩

/-- A line of one operand in range, laid out low byte first (30_encoding R68). -/
theorem assemble_one {op : Byte} {n bound : Nat} (hop : mappedOpcode op = true) (hbounds : sourceBounds op = [bound])
    (hn : n < bound) : assemble ⟨op, [n]⟩ = decodeOp op (BitVec.ofNat 8 n) (BitVec.ofNat 8 (n / 0x100)) :=
  if_pos (by simp [SourceLine.wf, SourceLine.opcodeOk, SourceLine.countOk, SourceLine.rangeOk, hop, hbounds, hn])

/-- A line of two operands in range, laid out in their order. -/
theorem assemble_two {op : Byte} {n m bound bound' : Nat} (hop : mappedOpcode op = true)
    (hbounds : sourceBounds op = [bound, bound']) (hn : n < bound) (hm : m < bound') :
    assemble ⟨op, [n, m]⟩ = decodeOp op (BitVec.ofNat 8 n) (BitVec.ofNat 8 m) :=
  if_pos (by simp [SourceLine.wf, SourceLine.opcodeOk, SourceLine.countOk, SourceLine.rangeOk, hop, hbounds, hn, hm])

end Sys2Proof

namespace Sys2Proof.Machine

theorem fetchInstr_of_empty_slot {s : State} (h : slotOf (s.load s.ic) = none) : fetchInstr s = none :=
  (fetchInstr_eq_none_iff s).mpr ((slotOf_eq_none_iff _).mp h)

/-- The result of a Cycle that fetches an unmapped opcode (60_exceptions R138). -/
theorem cycleResult_of_unmapped {s : State} (h : fetchInstr s = none) :
    cycleResult s = some (.unknownOpcode (s.load s.ic) s.ic) := by
  rw [cycleResult, h]
  rfl

end Sys2Proof.Machine
end

section
/-! PROOFS. The statements of 30_encoding. -/

open Sys2Proof Sys2Proof.Machine Sys2Proof.Claims

/-- Settles O3: each instruction's bytes are decoded by its own slot, and the slot the decoder fills takes exactly the bytes the
encoder gives. -/
theorem decodeAndEncodeAgree : Obligations.DecodeAndEncodeAgree :=
  ⟨fun i rest _ => decode_encode i rest, fun _ _ _ h => eq_encode_append_of_decode h⟩

/-- Settles O2: the empty slots are the ranges of R74, and a Cycle that fetches one takes UnknownOpcode. -/
theorem unmappedOpcodesAreRejected : Obligations.UnmappedOpcodesAreRejected := by
  refine ⟨fun op => (slotOf_eq_none_iff op).trans (mappedOpcode_eq_false_iff op), fun _ rest h => decode_of_unmapped h rest,
    length_unmapped, fun s h => ?_⟩
  have hfetch := fetchInstr_of_empty_slot h
  obtain ⟨t, ht⟩ := step_completes s
  obtain ⟨-, -, hflt⟩ := latches_of_unmapped hfetch ht
  exact ⟨cycleResult_of_unmapped hfetch, t, ht, hflt⟩

/-- Settles O4: a line in range fills its opcode's slot, and MAR's u16 is split into its low and its high byte. -/
theorem assemblyNotationGivesBytes : Obligations.AssemblyNotationGivesBytes := by
  refine ⟨fun n hn => ?_, fun n m hn hm => ?_, fun n hn op hop => ?_, fun l hl => ?_⟩
  · have hlow : BitVec.ofNat 8 (n % 0x100) = BitVec.ofNat 8 n := BitVec.eq_of_toNat_eq (by simp)
    rw [assemble_one rfl rfl hn, hlow]
    rfl
  · rw [assemble_two rfl rfl hn hm]
    rfl
  · simp only [List.mem_cons, List.not_mem_nil, or_false] at hop
    rcases hop with rfl | rfl | rfl | rfl <;> exact congrArg (Option.map encode) (assemble_one rfl rfl hn)
  · obtain ⟨b1, b2, hasm⟩ := assemble_of_wf hl
    obtain ⟨i, hi⟩ := exists_decodeOp_of_mapped (mappedOpcode_of_wf hl) b1 b2
    exact ⟨i, hasm.trans hi, opcodeOf_of_decodeOp hi⟩

/-- Settles O1: every mapped opcode with its operand bytes is the encoding of its instruction, which decodes to it. -/
theorem opcodeMapSelectsInstructions : Obligations.OpcodeMapSelectsInstructions :=
  fun b1 b2 rest =>
    ⟨decode_encode .nul rest, decode_encode (.mar b1 b2) rest, decode_encode .sic rest, decode_encode .rar rest,
      decode_encode .aar rest, decode_encode .ir0 rest, decode_encode .a01 rest, decode_encode .dr0 rest,
      decode_encode .s01 rest, decode_encode .x12 rest, decode_encode .x01 rest, decode_encode .jmp rest,
      decode_encode .sr0 rest, decode_encode .srw rest, decode_encode .lr0 rest, decode_encode .lrw rest,
      decode_encode .taw rest, decode_encode (.mr0 b1) rest, decode_encode (.mrw b1 b2) rest, decode_encode .jz0 rest,
      decode_encode .jgw rest, decode_encode .jew rest, decode_encode (.or0 b1) rest, decode_encode (.an0 b1) rest,
      decode_encode (.je0 b1) rest, decode_encode .c01 rest, decode_encode .c02 rest, decode_encode .irw rest,
      decode_encode .drw rest, decode_encode .x03 rest, decode_encode .c03 rest, decode_encode .c30 rest,
      decode_encode .pl0 rest, decode_encode .pr0 rest, decode_encode .hlt rest⟩

/-- Settles O5: five words and an unmapped byte, decoded by evaluation. -/
theorem sampleWordsDecode : Obligations.SampleWordsDecode := by
  unfold Obligations.SampleWordsDecode
  decide
end

section
/-! PROOFS. The Cycle, once each: the watchdog update in it, the bytes decoded and the placed instruction, what it does not read,
and a count of Cycles. -/

namespace Sys2Proof

/-! ### Decoding three bytes -/

/-- A byte string that decodes does so as the Cycle decodes it, with all three bytes at hand (30_encoding R75). -/
theorem decodeOp_of_decode {op b1 b2 : Byte} {i : Instr} {rest : List Byte} (h : decode [op, b1, b2] = .ok (i, rest)) :
    decodeOp op b1 b2 = some i := by
  unfold decodeOp
  cases hslot : slotOf op with
  | none => simp [decode, hslot] at h
  | some slot =>
    cases slot with
    | f1 _ | f2 _ | f3 _ =>
      simp only [decode, hslot] at h
      cases h
      rfl

theorem decodeOp_of_decodeTableWord {nbits w : Nat} {i : Instr} (h : decodeTableWord nbits w = some i) :
    decodeOp (tableByte nbits w 0) (tableByte nbits w 1) (tableByte nbits w 2) = some i := by
  unfold decodeTableWord at h
  split at h
  · next hdecode =>
    cases h
    exact decodeOp_of_decode hdecode
  · cases h

end Sys2Proof

namespace Sys2Proof.Machine

open Sys2Proof.Claims

/-! ### The watchdog update -/

theorem afterWatchdog_wdInc (s : State) : afterWatchdog s 0x0010 = s.load 0x0010 + 1 := if_pos rfl

theorem afterWatchdog_wdDec (s : State) : afterWatchdog s 0x0011 = s.load 0x0011 - 1 := by simp [afterWatchdog]

theorem afterWatchdog_other (s : State) {a : Word} (hinc : a ≠ 0x0010) (hdec : a ≠ 0x0011) :
    afterWatchdog s a = s.load a := by
  rw [afterWatchdog, if_neg hinc, if_neg hdec]

/-- A byte the instruction of a Cycle does not store to holds what the watchdog update left, an unmapped opcode included
(40_cycle R79). -/
theorem load_of_step_of_not_stored {s t : State} (h : step s = .next t) {a : Word}
    (ha : ∀ i, fetchInstr s = some i → storesTo i (beginCycle s) a = false) : t.load a = afterWatchdog s a := by
  cases hfetch : fetchInstr s with
  | some i =>
    rw [load_of_step hfetch h, storedByte_eq_none (ha i hfetch)]
    rfl
  | none =>
    rw [step_of_unmapped hfetch] at h
    cases h
    rw [load_takeUnknownOpcode, load_beginCycle_eq_afterWatchdog]

/-! ### A count of Cycles -/

theorem afterCycle_of_step {s t : State} (h : step s = .next t) : afterCycle s = t := by rw [afterCycle, h]

/-- The first Cycle of a quiet run moves both watchdog bytes by one, and the rest of the run is quiet. -/
theorem step_of_quiet {n : Nat} {s t : State} (hq : quiet (n + 1) s = true) (h : step s = .next t) :
    t.load 0x0010 = s.load 0x0010 + 1 ∧ t.load 0x0011 = s.load 0x0011 - 1 ∧ quiet n t = true := by
  rw [quiet, Bool.and_eq_true, afterCycle_of_step h] at hq
  obtain ⟨hnow, hrest⟩ := hq
  have hkept : ∀ i, fetchInstr s = some i →
      storesTo i (beginCycle s) Config.wdIncAddr = false ∧ storesTo i (beginCycle s) Config.wdDecAddr = false := by
    intro i hi
    simpa [hi] using hnow
  exact ⟨(load_of_step_of_not_stored h fun i hi => (hkept i hi).1).trans (afterWatchdog_wdInc s),
    (load_of_step_of_not_stored h fun i hi => (hkept i hi).2).trans (afterWatchdog_wdDec s), hrest⟩

/-- A quiet run of n Cycles is answered, and counts the watchdog bytes up and down by n (40_cycle R80). -/
theorem transactAll_cycles_of_quiet (p : Config.Params) {n : Nat} {s : State} (hq : quiet n s = true) :
    ∃ t rs, transactAll p (List.replicate n .cycle) s = .next (t, rs)
      ∧ t.load 0x0010 = s.load 0x0010 + BitVec.ofNat 8 n ∧ t.load 0x0011 = s.load 0x0011 - BitVec.ofNat 8 n := by
  induction n generalizing s with
  | zero => exact ⟨s, [], rfl, by simp, by simp⟩
  | succ n ih =>
    obtain ⟨u, hu⟩ := step_completes s
    obtain ⟨hinc, hdec, hrest⟩ := step_of_quiet hq hu
    obtain ⟨t, rs, hall, htinc, htdec⟩ := ih hrest
    refine ⟨t, _, transactAll_cons_iff.mpr ⟨u, _, rs, transact_cycle p hu, hall, rfl⟩, ?_, ?_⟩
    · rw [htinc, hinc, Nat.add_comm, BitVec.ofNat_add, ← add_assoc]
      rfl
    · rw [htdec, hdec, Nat.add_comm, BitVec.ofNat_add, sub_sub]
      rfl

/-! ### The instruction a Cycle runs -/

/-- A Cycle runs the instruction its bytes decode to: the opcode as it stands, the operand bytes after the watchdog update
(40_cycle R81). -/
theorem step_of_decodeOp {s : State} {i : Instr}
    (h : decodeOp (s.load s.ic) (afterWatchdog s (s.ic + 1)) (afterWatchdog s (s.ic + 2)) = some i) :
    step s = exec i (beginCycle s) :=
  step_of_fetched ((fetchInstr_eq_decodeOp s).trans h)

theorem afterWatchdog_eq_tick (s : State) (a : Word) :
    afterWatchdog s a =
      if a = Config.wdDecAddr then s.load a - 1 else if a = Config.wdIncAddr then s.load a + 1 else s.load a := by
  rw [← load_beginCycle_eq_afterWatchdog, load_beginCycle]
  split_ifs with hdec hinc
  · rw [hdec]
  · rw [hinc]
  · rfl

/-- A placed operand byte reads as it was given once the next Cycle has opened, on a watchdog byte too. -/
theorem afterWatchdog_of_beforeTick {s : State} {a : Word} {b : Byte} (h : s.load a = beforeTick a b) :
    afterWatchdog s a = b := by
  rw [afterWatchdog_eq_tick, h, tick_beforeTick]

@[simp] theorem placeInstr_ic (s : State) (op b1 b2 : Byte) : (placeInstr s op b1 b2).ic = s.ic := rfl

/-- A placed instruction is the one the next Cycle fetches. -/
theorem fetchInstr_placeInstr (s : State) (op b1 b2 : Byte) :
    fetchInstr (placeInstr s op b1 b2) = decodeOp op b1 b2 := by
  have hop : (placeInstr s op b1 b2).load s.ic = op := by
    simp [load_placeInstr]
  have h1 : (placeInstr s op b1 b2).load (s.ic + 1) = beforeTick (s.ic + 1) b1 := by
    simp [load_placeInstr]
  have h2 : (placeInstr s op b1 b2).load (s.ic + 2) = beforeTick (s.ic + 2) b2 := by
    simp [load_placeInstr]
  rw [fetchInstr_eq_decodeOp, placeInstr_ic, hop, afterWatchdog_of_beforeTick h1, afterWatchdog_of_beforeTick h2]

/-! ### Data reads and stores of a Cycle -/

/-- A Cycle of SR0 overrides the watchdog update at AR alone. -/
theorem step_sr0 {s : State} (hop : s.load s.ic = 0x12) :
    ∃ t, step s = .next t ∧ t.load s.ar = s.r0 ∧ ∀ a : Word, a ≠ s.ar → t.load a = afterWatchdog s a := by
  have hfetch : fetchInstr s = some .sr0 := fetchInstr_of_opcode hop rfl
  obtain ⟨t, ht⟩ := step_completes s
  have hload : ∀ a, t.load a = (if a = s.ar then some s.r0 else none).getD (afterWatchdog s a) := load_of_step hfetch ht
  refine ⟨t, ht, ?_, fun a ha => ?_⟩
  · rw [hload, if_pos rfl]
    rfl
  · rw [hload, if_neg ha]
    rfl

/-- A Cycle that stores a pair at AR (SRW and SIC alike) overrides the watchdog update at those two bytes alone. -/
theorem step_stores_pair {s : State} {i : Instr} {lo hi : Byte} (hfetch : fetchInstr s = some i)
    (hstored : ∀ a, storedByte i (beginCycle s) a =
      if a = nextAddress s.ar then some hi else if a = s.ar then some lo else none) :
    ∃ t, step s = .next t ∧ t.load s.ar = lo ∧ t.load (s.ar + 1) = hi
      ∧ ∀ a : Word, a ≠ s.ar → a ≠ s.ar + 1 → t.load a = afterWatchdog s a := by
  obtain ⟨t, ht⟩ := step_completes s
  have hload : ∀ a, t.load a = (if a = nextAddress s.ar then some hi else if a = s.ar then some lo else none).getD
      (afterWatchdog s a) := fun a => hstored a ▸ load_of_step hfetch ht a
  refine ⟨t, ht, ?_, ?_, fun a hlow hhigh => ?_⟩
  · rw [hload, if_neg (nextAddress_ne s.ar).symm, if_pos rfl]
    rfl
  · rw [hload, nextAddress, if_pos rfl]
    rfl
  · rw [hload, nextAddress, if_neg hhigh, if_neg hlow]
    rfl

/-- IR0 run at a watchdog byte: the opcode is the byte as it stood, and the byte is then updated like any other watchdog byte. -/
theorem step_ir0 {s : State} (hop : s.load s.ic = 0x05) :
    ∃ t, step s = .next t ∧ t.curop = 0x05 ∧ t.r0 = saturatingInc s.r0 ∧ ∀ a, t.load a = afterWatchdog s a := by
  have hfetch : fetchInstr s = some .ir0 := fetchInstr_of_opcode hop rfl
  have hstep : step s = .next (((beginCycle s).setR0 (saturatingInc s.r0)).advance 1) := step_of_fetched hfetch
  exact ⟨_, hstep, hop, rfl, load_of_step hfetch hstep⟩

/-! ### What a Cycle does not read -/

theorem exec_setHlt (i : Instr) (s : State) (b : Bool) :
    exec i (s.setHlt b) = mapNext (fun t => if decide (i = .hlt) then t else t.setHlt b) (exec i s) := by
  refine exec_of_independent (set := (State.setHlt · b)) ?_ ?_ fun t n => by cases jumps i s <;> rfl
  all_goals cases i <;> rfl

theorem exec_setFlt (i : Instr) (s : State) (f : FaultLatch) :
    exec i (s.setFlt f) = mapNext (fun t => t.setFlt f) (exec i s) := by
  refine exec_of_independent (writes := false) (set := (State.setFlt · f)) ?_ ?_ fun t n => by cases jumps i s <;> rfl
  all_goals cases i <;> rfl

theorem step_setHlt (s : State) (b : Bool) :
    step (s.setHlt b) = mapNext (fun t => if s.load s.ic = 0xFF then t else t.setHlt b) (step s) := by
  cases hfetch : fetchInstr s with
  | some i =>
    have hstep : step (s.setHlt b) = exec i ((beginCycle s).setHlt b) := step_of_fetched hfetch
    rw [hstep, step_of_fetched hfetch, exec_setHlt]
    simp only [decide_eq_true_eq, fetchInstr_eq_hlt_iff hfetch]
  | none =>
    have hstep := step_of_unmapped hfetch
    have hstep' : step (s.setHlt b) = .next ((takeUnknownOpcode (beginCycle s) (fetchOpcode s)).setHlt b) :=
      step_of_unmapped (s := s.setHlt b) hfetch
    obtain ⟨hop, -, -⟩ := latches_of_unmapped hfetch hstep
    simp only [hstep', hstep, mapNext, hop, if_false]

/-- The opening of a Cycle overwrites CUROP, so nothing after it can depend on it (10_state R29). -/
theorem step_setCurop (s : State) (c : Byte) : step (s.setCurop c) = step s := rfl

theorem step_setFlt (s : State) (f : FaultLatch) :
    step (s.setFlt f) = mapNext (fun t => if mappedOpcode (s.load s.ic) then t.setFlt f else t) (step s) := by
  cases hfetch : fetchInstr s with
  | some i =>
    have hmap : mappedOpcode (s.load s.ic) = true := by
      rw [← Bool.not_eq_false, ← fetchInstr_eq_none_iff, hfetch]
      exact nofun
    have hstep : step (s.setFlt f) = exec i ((beginCycle s).setFlt f) := step_of_fetched hfetch
    simp only [hstep, step_of_fetched hfetch, exec_setFlt, hmap, if_true]
  | none =>
    have hmap := (fetchInstr_eq_none_iff s).mp hfetch
    have hstep : step (s.setFlt f) = .next (takeUnknownOpcode (beginCycle s) (fetchOpcode s)) :=
      step_of_unmapped (s := s.setFlt f) hfetch
    simp [hstep, step_of_unmapped hfetch, mapNext, hmap]

end Sys2Proof.Machine
end

section
/-! PROOFS. The end of a run, once each: how one Cycle and one transaction end it, how runs are joined, and where the boundary that
ends a run stands (40_cycle R89). -/

namespace Sys2Proof.Machine

/-! ### One transaction -/

theorem fetchInstr_eq_some_hlt_iff (s : State) : fetchInstr s = some .hlt ↔ s.load s.ic = 0xFF :=
  ⟨fun h => (fetchInstr_eq_hlt_iff h).mp rfl, fun h => fetchInstr_of_opcode h rfl⟩

theorem step_of_transact_cycle {p : Config.Params} {s t : State} {r : Reply} (h : transact p .cycle s = .next (t, r)) :
    step s = .next t := by
  obtain ⟨u, hu⟩ := step_completes s
  cases h.symm.trans (transact_cycle p hu)
  exact hu

/-- A Cycle ends a run faulted exactly where it raises UnknownOpcode, which leaves FLT.faulted = 1. -/
theorem cycleEnd_eq_faulted_of_step {s t : State} (h : step s = .next t) :
    cycleEnd s t = .faulted ↔ mappedOpcode (s.load s.ic) = false ∧ t.flt.faulted = true := by
  rw [cycleEnd_eq_faulted]
  refine ⟨fun hfetch => ?_, fun ⟨hmap, _⟩ => (fetchInstr_eq_none_iff s).mpr hmap⟩
  obtain ⟨-, -, hflt⟩ := latches_of_unmapped hfetch h
  exact ⟨(fetchInstr_eq_none_iff s).mp hfetch, hflt ▸ rfl⟩

theorem cycleEnd_eq_halted_iff (s t : State) :
    cycleEnd s t = .halted ↔ s.load s.ic = 0xFF ∧ t.hlt = true ∧ t.flt.faulted = false := by
  rw [cycleEnd_eq_halted, fetchInstr_eq_some_hlt_iff]

/-- How a Cycle ends a run, by the state it starts in: HLT sets the latch itself and keeps FLT. -/
theorem cycleEnd_of_step {s t : State} (h : step s = .next t) :
    cycleEnd s t = if mappedOpcode (s.load s.ic) = false then .faulted
      else if s.load s.ic = 0xFF ∧ s.flt.faulted = false then .halted else .running := by
  cases hfetch : fetchInstr s with
  | none => rw [if_pos ((fetchInstr_eq_none_iff s).mp hfetch), cycleEnd_eq_faulted.mpr hfetch]
  | some i =>
    have hmap : ¬mappedOpcode (s.load s.ic) = false := by
      rw [← fetchInstr_eq_none_iff, hfetch]
      exact nofun
    obtain ⟨hhlt, hflt⟩ := latches_of_fetched hfetch h
    simp only [if_neg hmap, cycleEnd, hfetch, fetchInstr_eq_hlt_iff hfetch, hhlt, hflt]
    exact if_congr (and_congr_right fun hop => by simp [hop]) rfl rfl

theorem run_singleton {p : Config.Params} {x : Txn} {s t : State} {r : Reply} (h : transact p x s = .next (t, r)) :
    run p [x] s = .next ⟨boundaryEnd x s t, t, 1⟩ := by
  refine run_cons_iff.mpr ⟨t, r, h, ?_⟩
  by_cases hend : boundaryEnd x s t = .running
  · exact .inl ⟨hend, _, run_nil p t, by rw [hend]⟩
  · exact .inr ⟨hend, rfl⟩

/-! ### Runs joined -/

/-- A run that has not ended did not end at its first transaction, nor does the rest of it. -/
theorem run_cons_running {p : Config.Params} {x : Txn} {xs : List Txn} {s t : State} {n : Nat}
    (h : run p (x :: xs) s = .next ⟨.running, t, n⟩) :
    ∃ u reply m, transact p x s = .next (u, reply) ∧ boundaryEnd x s u = .running
      ∧ run p xs u = .next ⟨.running, t, m⟩ ∧ n = m + 1 := by
  obtain ⟨u, reply, hx, ⟨hend, ⟨how, v, m⟩, hrest, hr⟩ | ⟨hend, hr⟩⟩ := run_cons_iff.mp h
  · cases hr
    exact ⟨u, reply, m, hx, hend, hrest, rfl⟩
  · exact absurd (congrArg Run.how hr).symm hend

/-- A run that has not ended has made all its transactions. -/
theorem transactAll_of_running {p : Config.Params} {xs : List Txn} {s t : State} {n : Nat}
    (h : run p xs s = .next ⟨.running, t, n⟩) : n = xs.length ∧ ∃ rs, transactAll p xs s = .next (t, rs) := by
  induction xs generalizing s n with
  | nil => cases h; exact ⟨rfl, [], rfl⟩
  | cons x xs ih =>
    obtain ⟨u, reply, m, hx, -, hrest, rfl⟩ := run_cons_running h
    obtain ⟨hlen, rs, hall⟩ := ih hrest
    exact ⟨congrArg (· + 1) hlen, _, transactAll_cons_iff.mpr ⟨u, reply, rs, hx, hall, rfl⟩⟩

/-- A run that has not ended goes on as the rest of it does. -/
theorem run_append_of_running {p : Config.Params} {xs ys : List Txn} {s t : State} {n : Nat} {r : Run}
    (h : run p xs s = .next ⟨.running, t, n⟩) (hr : run p ys t = .next r) :
    run p (xs ++ ys) s = .next ⟨r.how, r.state, xs.length + r.count⟩ := by
  induction xs generalizing s n with
  | nil => cases h; simpa using hr
  | cons x xs ih =>
    obtain ⟨u, reply, m, hx, hend, hrest, -⟩ := run_cons_running h
    refine run_cons_iff.mpr ⟨u, reply, hx, .inl ⟨hend, _, ih hrest, ?_⟩⟩
    rw [List.length_cons, Nat.add_right_comm]

/-- A run that has ended stays as it is, whatever the host issues afterwards. -/
theorem run_append_of_ended {p : Config.Params} {xs : List Txn} (ys : List Txn) {s : State} {r : Run}
    (h : run p xs s = .next r) (hr : r.how ≠ .running) : run p (xs ++ ys) s = .next r := by
  induction xs generalizing s r with
  | nil => cases h; exact absurd rfl hr
  | cons x xs ih =>
    obtain ⟨u, reply, hx, ⟨hend, q, hq, rfl⟩ | ⟨hend, rfl⟩⟩ := run_cons_iff.mp h
    · exact run_cons_iff.mpr ⟨u, reply, hx, .inl ⟨hend, q, ih hq hr, rfl⟩⟩
    · exact run_cons_iff.mpr ⟨u, reply, hx, .inr ⟨hend, rfl⟩⟩

/-! ### The first boundary -/

/-- A run that has ended did so at a Cycle, before which its transactions leave it running. -/
theorem exists_last_cycle_of_ended {p : Config.Params} {xs : List Txn} {s : State} {r : Run} (h : run p xs s = .next r)
    (hr : r.how ≠ .running) :
    ∃ pre post u, xs = pre ++ .cycle :: post ∧ r.count = pre.length + 1
      ∧ run p pre s = .next ⟨.running, u, pre.length⟩ ∧ step u = .next r.state ∧ cycleEnd u r.state = r.how := by
  induction xs generalizing s r with
  | nil => cases h; exact absurd rfl hr
  | cons x xs ih =>
    obtain ⟨v, reply, hx, ⟨hend, q, hq, rfl⟩ | ⟨hend, rfl⟩⟩ := run_cons_iff.mp h
    · obtain ⟨pre, post, u, rfl, hcount, hpre, hstep, hcycle⟩ := ih hq hr
      refine ⟨x :: pre, post, u, rfl, congrArg (· + 1) hcount, ?_, hstep, hcycle⟩
      exact run_cons_iff.mpr ⟨v, reply, hx, .inl ⟨hend, _, hpre, rfl⟩⟩
    · obtain rfl : x = .cycle := not_imp_comm.mp (boundaryEnd_of_ne_cycle · s v) hend
      exact ⟨[], xs, s, rfl, rfl, run_nil p s, step_of_transact_cycle hx, rfl⟩

/-- Where an ended run stands: its transactions are some that leave it running, then the Cycle that ended it, then any others. -/
theorem run_eq_ended_iff {p : Config.Params} {xs : List Txn} {s t : State} {n : Nat} {how : RunEnd} (hhow : how ≠ .running) :
    run p xs s = .next ⟨how, t, n⟩ ↔ ∃ pre post u, xs = pre ++ .cycle :: post ∧ n = pre.length + 1
      ∧ run p pre s = .next ⟨.running, u, pre.length⟩ ∧ step u = .next t ∧ cycleEnd u t = how := by
  refine ⟨fun h => exists_last_cycle_of_ended h hhow, ?_⟩
  rintro ⟨pre, post, u, rfl, rfl, hpre, hstep, rfl⟩
  refine run_append_of_running (r := ⟨cycleEnd u t, t, 1⟩) hpre ?_
  exact run_append_of_ended post (run_singleton (transact_cycle p hstep)) hhow

end Sys2Proof.Machine
end

section
/-! PROOFS. The statements of 40_cycle. -/

open Sys2Proof Sys2Proof.Machine Sys2Proof.Claims

/-- Settles O11: a Cycle decodes the opcode as it stands, and every other read of it comes from the opened state, whose bytes
are `afterWatchdog`; a store is laid over those. -/
theorem onlyTheOpcodeIsFetchedBeforeTheWatchdog : Obligations.OnlyTheOpcodeIsFetchedBeforeTheWatchdog := by
  refine ⟨nextCycleRuns_load, fun s hic hop => ?_, fun s hic hop => ?_, fun s hop => ?_, fun s hop => ?_, fun s hop => ?_,
    fun s hop => ?_, fun s hop => ?_, fun s hop => ?_, fun s hop => ?_, fun s hop => ?_, fun s hop => step_sr0 hop,
    fun s hop => step_stores_pair (fetchInstr_of_opcode (i := .srw) hop rfl) fun _ => rfl,
    fun s hop => step_stores_pair (fetchInstr_of_opcode (i := .sic) hop rfl) fun _ => rfl⟩
  · obtain ⟨t, ht, hcur, hr0, hload⟩ := step_ir0 (hic ▸ hop)
    exact ⟨t, ht, hcur, hr0, by rw [hload, afterWatchdog_wdInc, hop]; rfl⟩
  · obtain ⟨t, ht, hcur, hr0, hload⟩ := step_ir0 (hic ▸ hop)
    exact ⟨t, ht, hcur, hr0, by rw [hload, afterWatchdog_wdDec, hop]; rfl⟩
  · exact ⟨_, step_of_decodeOp (i := .mar _ _) (by rw [hop]; rfl), toNat_pairWord _ _⟩
  · exact ⟨_, step_of_decodeOp (i := .mr0 _) (by rw [hop]; rfl), rfl⟩
  · exact ⟨_, step_of_decodeOp (i := .mrw _ _) (by rw [hop]; rfl), rfl, rfl⟩
  · exact ⟨_, step_of_decodeOp (i := .or0 _) (by rw [hop]; rfl), rfl⟩
  · exact ⟨_, step_of_decodeOp (i := .an0 _) (by rw [hop]; rfl), rfl⟩
  · exact ⟨_, step_of_decodeOp (i := .je0 _) (by rw [hop]; rfl), by simp [testEqual]⟩
  · exact ⟨_, step_of_decodeOp (i := .lr0) (by rw [hop]; rfl), load_beginCycle_eq_afterWatchdog s _⟩
  · exact ⟨_, step_of_decodeOp (i := .lrw) (by rw [hop]; rfl), load_beginCycle_eq_afterWatchdog s _,
      load_beginCycle_eq_afterWatchdog s _⟩

/-- Settles O13, by induction on the number of Cycles, from any two bytes; here both are 0. -/
theorem watchdogBytesCountCycles : Obligations.WatchdogBytesCountCycles := by
  intro p n s hq hinc hdec
  obtain ⟨t, rs, hall, htinc, htdec⟩ := transactAll_cycles_of_quiet p hq
  refine ⟨t, rs, hall, ?_, ?_⟩
  · rw [htinc, hinc]
    simp
  · rw [htdec, hdec]
    simp

/-- Settles O15: a placed byte on the watchdog is one off, so that it reads as given after the update. -/
theorem placedWordIsRunByTheNextCycle : Obligations.PlacedWordIsRunByTheNextCycle :=
  fun s _ _ _ h => ⟨rfl, step_of_fetched ((fetchInstr_placeInstr s _ _ _).trans (decodeOp_of_decodeTableWord h))⟩

/-- Settles O20: the fetch and the opening do not look at the latches, and no effect or jump test does. -/
theorem latchesAreNeverRead : Obligations.LatchesAreNeverRead :=
  ⟨step_setHlt, step_setCurop, step_setFlt⟩

/-- Settles O23, by the two things a Cycle can do: run an instruction or take UnknownOpcode. -/
theorem watchdogUpdateInEveryCycle : Obligations.WatchdogUpdateInEveryCycle :=
  fun _ _ h _ ha => load_of_step_of_not_stored h ha

/-- Settles O39: a burst and the loop test `mayCycle` before they go on. -/
theorem driverIssuesNoCycleWhenStopped : Obligations.DriverIssuesNoCycleWhenStopped := by
  refine ⟨fun s => by simp [mayCycle], fun n d h => ?_, fun p fuel d h => ?_⟩
  · cases n with
    | zero => rfl
    | succ n => simp [driverBurst, h]
  · simp [driverLoop, h]

/-- Settles O41: a run of one transaction stands as its one boundary does, and only a Cycle's boundary ends it. -/
theorem runEndsHaltedOrFaulted : Obligations.RunEndsHaltedOrFaulted := by
  refine ⟨fun p s => ?_, fun p x s t r hx h => ?_, fun r => beq_iff_eq⟩
  · obtain ⟨t, ht⟩ := step_completes s
    exact ⟨t, ht, cycleEnd_of_step ht ▸ run_singleton (transact_cycle p ht)⟩
  · exact boundaryEnd_of_ne_cycle hx s t ▸ run_singleton h

/-- Settles O42, each clause by induction on the transactions: up to its first boundary a run goes on, and from it on it stands. -/
theorem runEndsAtItsFirstBoundary : Obligations.RunEndsAtItsFirstBoundary := by
  refine ⟨fun p xs ys s t n h => ?_, fun p xs ys s r h hr => run_append_of_ended ys h hr, fun p xs s t n => ?_,
    fun p xs s t n => ?_, fun p host s hforever n r hr => ?_⟩
  · obtain ⟨hn, hall⟩ := transactAll_of_running h
    exact ⟨hn, hall, fun r hr => run_append_of_running h hr⟩
  · simp only [run_eq_ended_iff (how := .halted) nofun, cycleEnd_eq_halted_iff]
  · simp only [run_eq_ended_iff (how := .faulted) nofun]
    refine exists₃_congr fun pre post u => and_congr_right fun _ => and_congr_right fun _ => and_congr_right fun _ => ?_
    exact and_congr_right fun hstep => cycleEnd_eq_faulted_of_step hstep
  · obtain ⟨t, ht⟩ := hforever n
    cases hr.symm.trans ht
    rfl

/-- Settles O6: the opening writes CUROP and the two watchdog bytes, and nothing else. -/
theorem cycleOpensWithFetchAndWatchdog : Obligations.CycleOpensWithFetchAndWatchdog := by
  refine fun s => ⟨rfl, ?_, ?_, fun a hinc hdec => ?_⟩
  · rw [load_beginCycle_eq_afterWatchdog, afterWatchdog_wdInc]
  · rw [load_beginCycle_eq_afterWatchdog, afterWatchdog_wdDec]
  · rw [load_beginCycle_eq_afterWatchdog, afterWatchdog_other s hinc hdec]

/-- Settles O7: the three bytes decode as the Cycle decodes them. -/
theorem stepRunsTheDecodedInstruction : Obligations.StepRunsTheDecodedInstruction :=
  fun _ _ _ h _ => step_of_fetched (decodeOp_of_decode h)
end

section
/-! PROOFS. Words and pairs as the address instructions use them: a pair as the number it stands for, and what a stored pair leaves
outside its two bytes. -/

namespace Sys2Proof.Machine

/-- A pair of bytes is the u16 of the number it stands for (00_scope R11). -/
theorem pairWord_eq_ofNat (hi lo : Byte) : pairWord hi lo = BitVec.ofNat 16 (hi.toNat * 0x100 + lo.toNat) := by
  rw [← toNat_pairWord, BitVec.ofNat_toNat, BitVec.setWidth_eq]

theorem State.load_storePair_other (s : State) {a b : Word} (lo hi : Byte) (hlow : b ≠ a) (hhigh : b ≠ nextAddress a) :
    (s.storePair a lo hi).load b = s.load b := by
  rw [State.load_storePair, if_neg hhigh, if_neg hlow]

end Sys2Proof.Machine
end

section
/-! PROOFS. The statements of 41_address. -/

open Sys2Proof Sys2Proof.Machine

/-- Settles O47: MAR's AR is the pair of its operand bytes, which the Cycle reads after its opening; AAR adds modulo 0x10000. -/
theorem marAndAarSetAr : Obligations.MarAndAarSetAr := by
  refine ⟨fun s b1 b2 => ?_, fun s hop => ?_, fun s => ⟨_, rfl, rfl, toNat_addOffset s.ar s.r0⟩⟩
  · rw [← pairWord_eq_ofNat]
    rfl
  · rw [load_beginCycle_eq_afterWatchdog, load_beginCycle_eq_afterWatchdog]
    exact step_of_decodeOp (by rw [hop]; rfl)

/-- Settles O48: SIC stores the two bytes of its own IC as a pair at AR, then advances. -/
theorem sicStoresItsOwnAddress : Obligations.SicStoresItsOwnAddress := by
  refine fun s => ⟨_, rfl, rfl, ?_, ?_, fun a hlow hhigh => ?_⟩
  · rw [State.load_advance, State.load_storePair_low, toNat_lowByte]
  · rw [State.load_advance, State.load_storePair_high, toNat_highByte]
  · rw [State.load_advance, State.load_storePair_other s _ _ hlow hhigh]

/-- Settles O49: TAW splits AR into its two bytes, and the pair RAR makes of them is AR again. -/
theorem rarAndTawAreInverse : Obligations.RarAndTawAreInverse := by
  refine fun s => ⟨?_, _, rfl, rfl, toNat_lowByte s.ar, toNat_highByte s.ar, _, rfl, pairWord_high_low s.ar⟩
  rw [← pairWord_eq_ofNat]
  rfl

/-- Settles O46: NUL has no effect and HLT sets its latch, and neither jumps, so each ends by advancing IC over its one byte. -/
theorem nulAndHltAdvance : Obligations.NulAndHltAdvance :=
  fun s => ⟨exec_eq_branch .nul s, exec_eq_branch .hlt s⟩
end

section
/-! PROOFS. Saturation, shift, carry and borrow as the arithmetic instructions use them: R0's results as 42_alu writes them, and the
two bytes of the pair as numbers, path by path; and the operand byte as the Cycle reads it. -/

namespace Sys2Proof.Machine

/-- DR0's result in exact integers: the subtraction stops at 0 (42_alu R99). -/
theorem cast_toNat_saturatingDec (v : Byte) : ((saturatingDec v).toNat : Int) = max ((v.toNat : Int) - 1) 0 := by
  rw [toNat_saturatingDec]
  omega

theorem shiftLeft_eq_shiftLeft_one (v : Byte) : shiftLeft v = v <<< 1 := by
  apply BitVec.eq_of_toNat_eq
  rw [toNat_shiftLeft, BitVec.toNat_shiftLeft, Nat.shiftLeft_eq]

theorem shiftRight_eq_ushiftRight_one (v : Byte) : shiftRight v = v >>> 1 := by
  apply BitVec.eq_of_toNat_eq
  rw [toNat_shiftRight, BitVec.toNat_ushiftRight, Nat.shiftRight_eq_div_pow]

/-- A01's carry in exact integers (42_alu R98). -/
theorem toNat_pairAdd (n r1 r2 : Byte) :
    ((pairAdd n r1 r2).1.toNat, (pairAdd n r1 r2).2.toNat) =
      if r1.toNat + n.toNat > 0xFF then
        if r2.toNat = 0xFF then (0xFF, 0xFF) else (r1.toNat + n.toNat - 0x100, r2.toNat + 1)
      else (r1.toNat + n.toNat, r2.toNat) := by
  obtain ⟨hle, h⟩ | ⟨hgt, rfl, h⟩ | ⟨hgt, hr2, h⟩ := pairAdd_cases n r1 r2
  · rw [h, if_neg (by omega), BitVec.toNat_add_of_lt (by omega)]
  · rw [h, if_pos hgt]
    rfl
  · have hlo : (r1 + n).toNat = r1.toNat + n.toNat - 0x100 := by bv_omega
    have hhi : (r2 + 1).toNat = r2.toNat + 1 := by bv_omega
    rw [h, if_pos hgt, if_neg (by bv_omega), hlo, hhi]

/-- A01's two bytes taken together: a carry out of the pair saturates it (42_alu R98). -/
theorem pairAdd_saturates (n r1 r2 : Byte) :
    (pairAdd n r1 r2).2.toNat * 0x100 + (pairAdd n r1 r2).1.toNat
      = min (r2.toNat * 0x100 + r1.toNat + n.toNat) 0xFFFF := by
  have hlt := r2.isLt
  have h := toNat_pairAdd n r1 r2
  by_cases hcarry : r1.toNat + n.toNat > 0xFF
  · by_cases hfull : r2.toNat = 0xFF
    · rw [if_pos hcarry, if_pos hfull, Prod.mk.injEq] at h
      omega
    · rw [if_pos hcarry, if_neg hfull, Prod.mk.injEq] at h
      omega
  · rw [if_neg hcarry, Prod.mk.injEq] at h
    omega

/-- The borrow of S01 and DRW in exact integers (42_alu R100, R104): R1 becomes the absolute difference. -/
theorem toNat_pairSub (n r1 r2 : Byte) :
    ((pairSub n r1 r2).1.toNat, (pairSub n r1 r2).2.toNat) =
      if r1.toNat < n.toNat then
        if r2.toNat = 0 then (0, 0) else (n.toNat - r1.toNat, r2.toNat - 1)
      else (r1.toNat - n.toNat, r2.toNat) := by
  obtain ⟨hle, h⟩ | ⟨hlt, rfl, h⟩ | ⟨hlt, hr2, h⟩ := pairSub_cases n r1 r2
  · rw [h, if_neg (by omega), BitVec.toNat_sub_of_le hle]
  · rw [h, if_pos hlt]
    rfl
  · have hlo : (n - r1).toNat = n.toNat - r1.toNat := by bv_omega
    have hhi : (r2 - 1).toNat = r2.toNat - 1 := by bv_omega
    rw [h, if_pos hlt, if_neg (by bv_omega), hlo, hhi]

/-- IRW's carry in exact integers (42_alu R103): R1 sticks at 0xFF and R2 saturates. -/
theorem toNat_pairInc (r1 r2 : Byte) :
    ((pairInc r1 r2).1.toNat, (pairInc r1 r2).2.toNat) =
      if r1.toNat + 1 > 0xFF then (0xFF, min (r2.toNat + 1) 0xFF) else (r1.toNat + 1, r2.toNat) := by
  obtain ⟨hr1, h⟩ | ⟨rfl, h⟩ := pairInc_cases r1 r2
  · have hlo : (r1 + 1).toNat = r1.toNat + 1 := by bv_omega
    rw [h, if_neg (by bv_omega), hlo]
  · rw [h, if_pos (by decide), toNat_saturatingInc]
    rfl

/-- DRW's borrow: only R1 = 0x00 is less than 1, and the absolute difference is then 0x01 (42_alu R104). -/
theorem toNat_pairSub_one (r1 r2 : Byte) :
    ((pairSub 1 r1 r2).1.toNat, (pairSub 1 r1 r2).2.toNat) =
      if r1.toNat = 0 then if r2.toNat = 0 then (0, 0) else (1, r2.toNat - 1) else (r1.toNat - 1, r2.toNat) := by
  rw [toNat_pairSub, show (1 : Byte).toNat = 1 from rfl]
  by_cases h : r1.toNat = 0
  · simp [h]
  · rw [if_neg (by omega), if_neg h]

/-- A Cycle runs the instruction of the opcode as it stands and the operand bytes of the opened state (40_cycle R78, R81). -/
theorem step_of_decodeOp_opened {s : State} {i : Instr}
    (h : decodeOp (s.load s.ic) ((beginCycle s).load (s.ic + 1)) ((beginCycle s).load (s.ic + 2)) = some i) :
    step s = exec i (beginCycle s) :=
  step_of_fetched h

end Sys2Proof.Machine
end

section
/-! PROOFS. The statements of 42_alu. -/

open Sys2Proof Sys2Proof.Machine

/-- Settles O50: each of the four writes its own function of R0 and advances IC. -/
theorem r0ArithmeticStaysInEightBits : Obligations.R0ArithmeticStaysInEightBits :=
  fun s => ⟨⟨_, rfl, rfl, toNat_saturatingInc s.r0⟩, ⟨_, rfl, rfl, cast_toNat_saturatingDec s.r0⟩,
    ⟨_, rfl, rfl, shiftLeft_eq_shiftLeft_one s.r0, toNat_shiftLeft s.r0⟩,
    ⟨_, rfl, rfl, shiftRight_eq_ushiftRight_one s.r0, toNat_shiftRight s.r0⟩⟩

/-- Settles O51: the pair A01 writes is `pairAdd`'s, read by its paths and as one number. -/
theorem a01AddsIntoThePairWithSaturation : Obligations.A01AddsIntoThePairWithSaturation :=
  fun s => ⟨_, rfl, rfl, toNat_pairAdd s.r0 s.r1 s.r2, pairAdd_saturates s.r0 s.r1 s.r2⟩

/-- Settles O52: the pair S01 writes is `pairSub`'s with R0. -/
theorem s01LeavesTheAbsoluteDifference : Obligations.S01LeavesTheAbsoluteDifference :=
  fun s => ⟨_, rfl, rfl, toNat_pairSub s.r0 s.r1 s.r2⟩

/-- Settles O54: the pair IRW writes is `pairInc`'s, and DRW's is `pairSub`'s with 1. -/
theorem irwSticksAndDrwBorrowsToOne : Obligations.IrwSticksAndDrwBorrowsToOne :=
  fun s => ⟨⟨_, rfl, rfl, toNat_pairInc s.r1 s.r2⟩, _, rfl, rfl, toNat_pairSub_one s.r1 s.r2⟩

/-- Settles O53: neither instruction jumps, and the Cycle reads their operand byte after its opening. -/
theorem logicCombinesTheImmediate : Obligations.LogicCombinesTheImmediate :=
  ⟨fun s b1 => ⟨exec_eq_branch (.or0 b1) s, exec_eq_branch (.an0 b1) s⟩,
    fun _ hop => step_of_decodeOp_opened (by rw [hop]; rfl), fun _ hop => step_of_decodeOp_opened (by rw [hop]; rfl)⟩
end

section
/-! PROOFS. The statements of 43_move. -/

open Sys2Proof Sys2Proof.Machine

/-- Settles O55: no move jumps, so each is its effect, whose reads all come from the state it starts in (00_scope R13),
followed by the advance over its one byte. -/
theorem swapsAndCopiesMoveRegisters : Obligations.SwapsAndCopiesMoveRegisters :=
  fun s => ⟨exec_eq_branch .x12 s, exec_eq_branch .x01 s, exec_eq_branch .x03 s, exec_eq_branch .c01 s,
    exec_eq_branch .c02 s, exec_eq_branch .c03 s, exec_eq_branch .c30 s⟩

/-- Settles O56: neither load jumps, and the Cycle reads their operand bytes after its opening. -/
theorem immediateLoadsTakeTheBytesInOrder : Obligations.ImmediateLoadsTakeTheBytesInOrder := by
  refine ⟨fun s b1 b2 => ⟨exec_eq_branch (.mr0 b1) s, exec_eq_branch (.mrw b1 b2) s⟩, fun s hop => ?_, fun s hop => ?_⟩
  · exact step_of_decodeOp_opened (by rw [hop]; rfl)
  · exact step_of_decodeOp_opened (by rw [hop]; rfl)
end

section
/-! PROOFS. The statements of 44_load_store. -/

open Sys2Proof Sys2Proof.Machine

/-- Settles O57: SR0 is one store at AR and SRW a stored pair, whose two addresses differ even where the second wraps to 0x0000
(20_memory R46); the advance over the one byte leaves memory. -/
theorem storesWriteAtAr : Obligations.StoresWriteAtAr := by
  refine fun s => ⟨⟨_, rfl, rfl, ?_, fun a ha => ?_⟩, _, rfl, rfl, ?_, ?_, fun a hlow hhigh => ?_⟩
  · rw [State.load_advance, State.load_store_same]
  · rw [State.load_advance, State.load_store_other s _ ha]
  · rw [State.load_advance, State.load_storePair_low]
  · rw [State.load_advance, State.load_storePair_high]
  · rw [State.load_advance, State.load_storePair_other s _ _ hlow hhigh]

/-- Settles O58: neither load jumps, so each is its effect, which reads at AR and for LRW at the next address, modulo 0x10000,
followed by the advance over its one byte. -/
theorem loadsReadAtAr : Obligations.LoadsReadAtAr :=
  fun s => ⟨exec_eq_branch .lr0 s, exec_eq_branch .lrw s⟩
end

section
/-! PROOFS. The statements of 45_control. -/

namespace Sys2Proof.Machine

/-- A branch is one write of IC. -/
theorem State.branch_eq_setIc (s : State) (b : Bool) (n : Word) :
    s.branch b n = s.setIc (if b then s.ar else s.ic + n) := by
  cases b <;> rfl

/-- An instruction with no effect before its branch only writes IC: AR when its test `p` holds, the next instruction's address
otherwise (45_control R121). -/
theorem exec_eq_setIc_of_effectOf {i : Instr} {s : State} {p : Prop} [Decidable p] (heffect : effectOf i s = s)
    (hjump : jumps i s = true ↔ p) :
    exec i s = .next (s.setIc (if p then s.ar else s.ic + BitVec.ofNat 16 (lengthOf i))) := by
  rw [exec_eq_branch, heffect, State.branch_eq_setIc]
  simp only [hjump]

end Sys2Proof.Machine

open Sys2Proof Sys2Proof.Machine

/-- Settles O60: a jump is its test and one write of IC, and the Cycle reads JE0's operand byte after its opening. -/
theorem jumpsGoToAr : Obligations.JumpsGoToAr := by
  refine ⟨fun s b1 => ⟨exec_eq_branch .jmp s, ?jz0, ?jgw, ?jew, ?je0⟩, fun s hop => ?operand⟩
  case jz0 => exact exec_eq_setIc_of_effectOf rfl (jumps_eq_true_iff .jz0 s)
  case jgw => exact exec_eq_setIc_of_effectOf rfl (jumps_eq_true_iff .jgw s)
  case jew => exact exec_eq_setIc_of_effectOf rfl (jumps_eq_true_iff .jew s)
  case je0 => exact exec_eq_setIc_of_effectOf rfl (jumps_eq_true_iff (.je0 b1) s)
  case operand => exact step_of_decodeOp_opened (by rw [hop]; rfl)
end

section
/-! PROOFS. The rasterizer and the redraw flag, once each: the code of a pixel, what an image depends on, what the driver's check
does, and the byte a store leaves in the flag. -/

namespace Sys2Proof.Machine

open Sys2Proof.Claims

/-! ### A pixel and an image -/

/-- The truth table is the code's arithmetic (48_rasterizer R130). -/
theorem toNat_colourCode_colourOf (bright color : Bool) :
    (colourCode (colourOf bright color)).toNat = 2 * bright.toNat + color.toNat := by
  cases bright <;> cases color <;> rfl

/-- Only zero against non-zero counts (48_rasterizer R129). -/
theorem toNat_bne_zero (v : Byte) : (v != 0x00).toNat = if v = 0x00 then 0 else 1 := by
  by_cases h : v = 0x00
  · rw [if_pos h, h]
    rfl
  · rw [if_neg h, bne_iff_ne.mpr h]
    rfl

theorem toNat_colourCode_pixelColour (s : State) (i : Fin 4096) : (colourCode (pixelColour s i)).toNat =
    2 * (if s.load (brightnessAddr i) = 0x00 then 0 else 1) + (if s.load (colorAddr i) = 0x00 then 0 else 1) := by
  rw [pixelColour, toNat_colourCode_colourOf, pixelBright, pixelColor, toNat_bne_zero, toNat_bne_zero]

theorem transact_pixel_of_lt (p : Config.Params) (s : State) (i : Fin 4096) :
    transact p (.pixel i.val) s = .next (s, .colour (colourCode (pixelColour s i))) := by
  rw [transact, pixel, dif_pos i.isLt]

theorem transact_pixel_of_le (p : Config.Params) (s : State) {i : Nat} (h : 4096 ≤ i) :
    transact p (.pixel i) s = .refused (.pixelIndexOutOfRange i) := by
  rw [transact, pixel, dif_neg h.not_gt]

theorem length_render (s : State) : (render s).length = 4096 := by
  rw [render, List.length_map, List.length_finRange]

theorem getElem?_render (s : State) (i : Fin 4096) : (render s)[i.val]? = some (colourCode (pixelColour s i)) := by
  simp [render]

/-- An image depends on the two planes alone: every address a pixel reads is at 0xE000 or above (48_rasterizer R132). -/
theorem render_eq_of_planes {s t : State} (h : ∀ a : Word, 0xE000 ≤ a.toNat → s.load a = t.load a) : render s = render t := by
  refine List.map_congr_left fun i _ => ?_
  have hbright : s.load (brightnessAddr i) = t.load (brightnessAddr i) := h _ (by rw [toNat_brightnessAddr]; omega)
  have hcolor : s.load (colorAddr i) = t.load (colorAddr i) := h _ (by rw [toNat_colorAddr]; omega)
  rw [pixelColour, pixelColour, pixelBright, pixelBright, pixelColor, pixelColor, hbright, hcolor]

/-- A store below the planes leaves the image. -/
theorem render_store_of_lt (s : State) {a : Word} (v : Byte) (h : a.toNat < 0xE000) : render (s.store a v) = render s := by
  refine render_eq_of_planes fun b hb => State.load_store_other s v ?_
  rintro rfl
  omega

/-! ### The redraw flag -/

theorem shouldRedraw_iff (s : State) : shouldRedraw s = true ↔ s.load 0x000A ≠ 0x00 := bne_iff_ne

/-- The driver's check on a set flag: one image, then the flag's byte cleared (40_cycle R88). -/
theorem driverCheck_of_set {d : Driven} (h : d.state.load 0x000A ≠ 0x00) :
    driverCheck d = { d with state := d.state.store 0x000A 0x00, frames := d.frames ++ [render d.state] } :=
  if_pos ((shouldRedraw_iff _).mpr h)

theorem driverCheck_of_clear {d : Driven} (h : d.state.load 0x000A = 0x00) : driverCheck d = d :=
  if_neg fun hset => (shouldRedraw_iff _).mp hset h

/-- An instruction that stores a byte in the flag leaves it set exactly when that byte is non-zero (48_rasterizer R134). -/
theorem exec_requests_redraw_iff {i : Instr} {s : State} {v : Byte} (hstored : storedByte i s 0x000A = some v) :
    ∃ t, exec i s = .next t ∧ (shouldRedraw t = true ↔ v ≠ 0x00) := by
  obtain ⟨t, ht, -⟩ := exec_completes i s
  have hload : t.load 0x000A = v := by rw [load_of_exec ht, hstored, Option.getD_some]
  exact ⟨t, ht, hload ▸ shouldRedraw_iff t⟩

/-! ### The bytes of a stored pair -/

theorem storedByte_srw_low {s : State} {a : Word} (h : a = s.ar) : storedByte .srw s a = some s.r1 :=
  h ▸ (if_neg (nextAddress_ne s.ar).symm).trans (if_pos rfl)

theorem storedByte_srw_high {s : State} {a : Word} (h : a = nextAddress s.ar) : storedByte .srw s a = some s.r2 := if_pos h

theorem storedByte_sic_low {s : State} {a : Word} (h : a = s.ar) : storedByte .sic s a = some (lowByte s.ic) :=
  h ▸ (if_neg (nextAddress_ne s.ar).symm).trans (if_pos rfl)

theorem storedByte_sic_high {s : State} {a : Word} (h : a = nextAddress s.ar) :
    storedByte .sic s a = some (highByte s.ic) := if_pos h

theorem lowByte_ne_zero_iff (w : Word) : lowByte w ≠ 0x00 ↔ w.toNat % 0x100 ≠ 0 := by
  rw [BitVec.toNat_ne, toNat_lowByte]
  rfl

theorem highByte_ne_zero_iff (w : Word) : highByte w ≠ 0x00 ↔ w.toNat / 0x100 ≠ 0 := by
  rw [BitVec.toNat_ne, toNat_highByte]
  rfl

end Sys2Proof.Machine
end

section
/-! PROOFS. The statements of 48_rasterizer. -/

open Sys2Proof Sys2Proof.Machine

/-- Settles O40: on a set flag the check is one image and one store at 0x000A, which lies below the planes. -/
theorem driverServesARedrawOnce : Obligations.DriverServesARedrawOnce := by
  refine fun d => ⟨fun hset => ?_, driverCheck_of_clear⟩
  rw [driverCheck_of_set hset]
  exact ⟨rfl, rfl, rfl, State.load_store_same _ _ _, fun a ha => State.load_store_other _ _ ha,
    render_store_of_lt _ _ (by decide)⟩

/-- Settles O43, from the truth table as arithmetic on the two plane bytes of the pixel. -/
theorem pixelCodeIsTwoBrightPlusColor : Obligations.PixelCodeIsTwoBrightPlusColor := by
  refine ⟨fun p s i => ⟨_, transact_pixel_of_lt p s i, toNat_colourCode_pixelColour s i⟩,
    fun p s i hi => transact_pixel_of_le p s hi, ⟨rfl, rfl, rfl, rfl⟩, ⟨rfl, rfl, rfl, rfl⟩, fun x y => ⟨rfl, ?_, ?_⟩⟩
  all_goals
    have := x.isLt
    simp only [pixelIndex]
    omega

/-- Settles O44: an image is the pixel codes in index order, and no pixel reads below 0xE000. -/
theorem renderIsAFunctionOfThePlanes : Obligations.RenderIsAFunctionOfThePlanes :=
  ⟨fun _ _ => rfl, fun s => ⟨length_render s, getElem?_render s⟩, fun _ _ h => render_eq_of_planes h⟩

/-- Settles O45, by the byte each store leaves at 0x000A: its low byte when AR is there, a pair's high byte when AR is one below. -/
theorem storesToDrawRequestARedraw : Obligations.StoresToDrawRequestARedraw := by
  refine ⟨shouldRedraw_iff, fun s har => ?sr0, fun s har => ?srwLow, fun s har => ?sicLow, fun s har => ?srwHigh,
    fun s har => ?sicHigh⟩
  case sr0 => exact exec_requests_redraw_iff (storedByte_sr0 har.symm)
  case srwLow => exact exec_requests_redraw_iff (storedByte_srw_low har.symm)
  case sicLow =>
    rw [← lowByte_ne_zero_iff]
    exact exec_requests_redraw_iff (storedByte_sic_low har.symm)
  case srwHigh => exact exec_requests_redraw_iff (storedByte_srw_high (by rw [har]; rfl))
  case sicHigh =>
    rw [← highByte_ne_zero_iff]
    exact exec_requests_redraw_iff (storedByte_sic_high (by rw [har]; rfl))
end

section
/-! PROOFS. Where the error causes are reported, what two Cycles at a watchdog byte read, and what the resets, power-on and a load
leave in the registers and in every byte, once each. -/

namespace Sys2Proof.Machine

open Sys2Proof.Claims

/-! ### The causes (60_exceptions R137) -/

theorem mayCycle_of_faulted {s : State} (h : s.flt.faulted = true) : mayCycle s = false := by
  rw [mayCycle, h, Bool.not_true, Bool.and_false]

theorem latchedCause_eq_unknownOpcode_iff (s : State) : latchedCause s = .unknownOpcode ↔ s.flt.faulted = true := by
  unfold latchedCause
  cases s.flt.faulted <;> simp

/-- UnknownOpcode is the only error a Cycle's reply can carry (60_exceptions R141). -/
theorem replyCause_cycle_iff (raised : Option Fault) : replyCause (.cycle raised) = .unknownOpcode ↔ raised ≠ none := by
  cases raised <;> simp [replyCause]

theorem replyCause_load_iff (r : LoadResult) : replyCause (.load r) = .programLoadFailure ↔ r = .programLoadFailure := by
  cases r <;> simp [replyCause]

/-! ### A load from WD_INC (70_reset R161) -/

/-- LR0 from WD_INC reads the byte one above what memory held before the Cycle. -/
theorem step_lr0_at_wdInc {t : State} (hop : t.load t.ic = 0x14) (har : t.ar = 0x0010) :
    ∃ u, step t = .next u ∧ u.r0 = t.load 0x0010 + 1 := by
  have hread : (beginCycle t).load t.ar = t.load 0x0010 + 1 := by
    rw [har, load_beginCycle_eq_afterWatchdog, afterWatchdog_wdInc]
  exact ⟨_, step_of_fetched (fetchInstr_of_opcode (i := .lr0) hop rfl), hread⟩

/-- A Cycle of SR0 leaves AR, and the byte R0 held where AR points. -/
theorem ar_and_load_of_step_sr0 {s t : State} (hop : s.load s.ic = 0x12) (h : step s = .next t) :
    t.ar = s.ar ∧ t.load s.ar = s.r0 := by
  obtain ⟨u, hu, hstored, -⟩ := step_sr0 hop
  cases h.symm.trans hu
  refine ⟨?_, hstored⟩
  cases h.symm.trans (step_of_fetched (fetchInstr_of_opcode (i := .sr0) hop rfl))
  rfl

/-! ### The registers a reset leaves (10_state R35) -/

theorem resetRegisters_engineReset (s : State) : ResetRegisters (engineReset s) :=
  ⟨rfl, rfl, rfl, rfl, rfl, rfl, rfl, rfl⟩

theorem sameInspection_engineReset (s : State) : SameInspection s (engineReset s) := ⟨rfl, rfl, rfl⟩

theorem resetRegisters_writeGlyph (g : Config.Glyph) {s : State} (h : ResetRegisters s) : ResetRegisters (writeGlyph g s) := by
  rw [writeGlyph_eq]
  exact h

theorem sameInspection_writeGlyph (g : Config.Glyph) {s t : State} (h : SameInspection s t) :
    SameInspection s (writeGlyph g t) := by
  rw [writeGlyph_eq]
  exact h

/-! ### The bytes a reset leaves (70_reset R152 to R155) -/

theorem load_softReset (s : State) (a : Word) : (softReset s).load a =
    if a = 0x0010 ∨ a = 0x0011 then 0x00
    else if a.toNat ≤ 0x00FF then s.load a else if a.toNat ≤ 0xDFFF then 0xFF else 0x00 := by
  rw [softReset, load_engineReset, load_clearVideo, load_clearRam]
  refine if_congr Iff.rfl rfl ?_
  by_cases hvideo : 0xE000 ≤ a.toNat
  · have hio : ¬a.toNat ≤ 0x00FF := by omega
    have hram : ¬a.toNat ≤ 0xDFFF := by omega
    simp only [hvideo, hio, hram, if_true, if_false]
  · have hram : a.toNat ≤ 0xDFFF := by omega
    by_cases hio : a.toNat ≤ 0x00FF
    · have hbelow : ¬0x0100 ≤ a.toNat := by omega
      simp only [hvideo, hio, hbelow, false_and, if_true, if_false]
    · have habove : 0x0100 ≤ a.toNat := by omega
      simp only [hvideo, hio, hram, habove, and_self, if_true, if_false]

/-- HardReset before its glyph: the three clears and the engine reset (70_reset R155). -/
def hardResetUnlit (s : State) : State := engineReset (clearVideo (clearRam (clearIo s)))

/-- Power-on before its glyph: every byte at its default fill (70_reset R152). -/
def powerOnUnlit (curop fltOp : Byte) (fltIc : Word) : State :=
  { State.reset with curop := curop, flt := ⟨false, fltOp, fltIc⟩, mem := [] }

theorem hardReset_eq_writeGlyph (p : Config.Params) (s : State) : hardReset p s = writeGlyph p.bootGlyph (hardResetUnlit s) :=
  rfl

theorem powerOn_eq_writeGlyph (g : Config.Glyph) (c o : Byte) (i : Word) :
    State.powerOn g c o i = writeGlyph g (powerOnUnlit c o i) := rfl

theorem load_powerOnUnlit (c o : Byte) (i a : Word) : (powerOnUnlit c o i).load a = memFill a.toNat := rfl

/-- The clears cover every byte, and the watchdog bytes' reset value is their fill. -/
theorem load_hardResetUnlit (s : State) (a : Word) : (hardResetUnlit s).load a = memFill a.toNat := by
  rw [hardResetUnlit, load_engineReset]
  split_ifs with hwd
  · rcases hwd with rfl | rfl <;> rfl
  · rw [load_clearVideo, load_clearRam, load_clearIo, memFill]
    by_cases hvideo : 0xE000 ≤ a.toNat
    · have hram : ¬(0x0100 ≤ a.toNat ∧ a.toNat ≤ 0xDFFF) := by omega
      simp only [hvideo, hram, if_true, if_false]
    · by_cases hram : 0x0100 ≤ a.toNat ∧ a.toNat ≤ 0xDFFF
      · simp only [hvideo, hram, and_self, if_true, if_false]
      · have hio : a.toNat ≤ 0x00FF := by omega
        simp only [hvideo, hram, hio, if_true, if_false]

/-- Canonical memories that read alike are equal, so up to the glyph a hard reset is power-on. -/
theorem hardResetUnlit_eq_powerOnUnlit {s : State} (h : s.mem.wf = true) :
    hardResetUnlit s = powerOnUnlit s.curop s.flt.op s.flt.ic := by
  have hwf : (hardResetUnlit s).mem.wf = true := engineReset_wf (clearVideo_wf (clearRam_wf (clearIo_wf h)))
  exact State.eq_of_fields rfl rfl rfl rfl rfl rfl rfl rfl rfl (memory_ext hwf reset_mem_wf (load_hardResetUnlit s))

theorem memFill_brightnessAddr (k : Fin 4096) : memFill (brightnessAddr k).toNat = 0x00 := by
  rw [toNat_brightnessAddr, memFill, if_neg (by omega)]

/-- Over a memory at its fill, a glyph leaves its bytes in the brightness plane. -/
theorem load_writeGlyph_of_fill (g : Config.Glyph) {s : State} (h : ∀ a, s.load a = memFill a.toNat) (k : Fin 4096) :
    (writeGlyph g s).load (brightnessAddr k) = glyphByte g k 0x00 := by
  rw [load_writeGlyph_brightness, h, memFill_brightnessAddr]

/-- Over a memory at its fill, a glyph leaves the fill outside the brightness plane. -/
theorem load_writeGlyph_of_fill_other (g : Config.Glyph) {s : State} (h : ∀ a, s.load a = memFill a.toNat) {a : Word}
    (ha : ¬(0xE000 ≤ a.toNat ∧ a.toNat ≤ 0xEFFF)) : (writeGlyph g s).load a = memFill a.toNat := by
  rw [load_writeGlyph_other g s (ne_brightnessAddr ha), h]

/-! ### The load (70_reset R157) -/

theorem loadResult_eq_failure_iff (image : Option (List Byte)) : loadResult image = .programLoadFailure ↔
    image = none ∨ ∃ bytes, image = some bytes ∧ 0xDF00 < bytes.length := by
  cases image with
  | none => simp [loadResult]
  | some bytes => simp [loadResult, Config.ramSize]

/-- A load that fails writes nothing (60_exceptions R140). -/
theorem transact_loadImage_of_failure (p : Config.Params) {image : Option (List Byte)}
    (h : loadResult image = .programLoadFailure) (s : State) :
    transact p (.loadImage image) s = .next (s, .load .programLoadFailure) := by
  rcases loadImage_cases image s with ⟨-, hkept⟩ | ⟨_, -, -, hok, -⟩
  · rw [transact, hkept, h]
  · cases h.symm.trans hok

theorem loadResult_of_fits {bytes : List Byte} (h : bytes.length ≤ 0xDF00) : loadResult (some bytes) = .ok :=
  if_neg h.not_gt

/-- An image that fits RAM stands there byte by byte from 0x0100: its writes do not reach the top of memory. -/
theorem load_loadImage_of_fits {bytes : List Byte} (h : bytes.length ≤ 0xDF00) (s : State) (a : Word) :
    (loadImage (some bytes) s).load a =
      if 0x0100 ≤ a.toNat then (bytes[a.toNat - 0x0100]?).getD (s.load a) else s.load a := by
  have hload : loadImage (some bytes) s = s.setMem (memWriteBytes s.mem Config.resetIc bytes) := by
    simp only [loadImage, loadResult_of_fits h]
  have hbase : Config.resetIc.toNat = 0x0100 := rfl
  rw [hload]
  exact memRead_memWriteBytes s.mem Config.resetIc bytes (by omega) a

end Sys2Proof.Machine
end

section
/-! PROOFS. The statements of 60_exceptions and 70_reset_and_hazards. -/

open Sys2Proof Sys2Proof.Machine Sys2Proof.Claims

/-- Settles O8: the opened state with FLT recorded, and an opened state holds the bytes `afterWatchdog`. -/
theorem unknownOpcodeIsTaken : Obligations.UnknownOpcodeIsTaken := by
  intro s hop
  have hfetch := (fetchInstr_eq_none_iff s).mpr hop
  have hload : ∀ a, (takeUnknownOpcode (beginCycle s) (fetchOpcode s)).load a = afterWatchdog s a := fun a => by
    rw [load_takeUnknownOpcode, load_beginCycle_eq_afterWatchdog]
  exact ⟨_, step_of_unmapped hfetch, rfl, rfl, rfl, rfl, rfl, rfl, rfl, rfl, rfl, (hload _).trans (afterWatchdog_wdInc s),
    (hload _).trans (afterWatchdog_wdDec s), fun a hinc hdec => (hload a).trans (afterWatchdog_other s hinc hdec),
    cycleResult_of_unmapped hfetch, mayCycle_of_faulted rfl⟩

/-- Settles O10: no arm of an instruction fails, and a Cycle runs an instruction or takes UnknownOpcode. -/
theorem everyInstructionCompletes : Obligations.EveryInstructionCompletes := by
  refine ⟨fun i s => ?_, step_completes⟩
  obtain ⟨t, ht, -⟩ := exec_completes i s
  exact ⟨t, ht⟩

/-- Settles O37: a Cycle reports UnknownOpcode where it fetched no instruction, and a load its own result. -/
theorem causeCodesOfTheErrors : Obligations.CauseCodesOfTheErrors := by
  refine ⟨rfl, rfl, rfl, rfl, latchedCause_eq_unknownOpcode_iff, fun s => ?_, fun image => ?_⟩
  · rw [replyCause_cycle_iff, ne_eq, cycleResult_eq_none_iff, not_not, fetchInstr_eq_none_iff]
  · rw [replyCause_load_iff, loadResult_eq_failure_iff]

/-- Settles O12: the stored byte overrides the first Cycle's update, and the second Cycle's update comes before its read. -/
theorem watchdogReadsOneMoreThanStored : Obligations.WatchdogReadsOneMoreThanStored := by
  intro s t hop har hstep hnext
  obtain ⟨hkept, hstored⟩ := ar_and_load_of_step_sr0 hop hstep
  obtain ⟨u, hu, hr0⟩ := step_lr0_at_wdInc hnext (hkept.trans har)
  refine ⟨u, hu, ?_⟩
  rw [hr0, ← har, hstored]
  exact BitVec.toNat_add _ _

/-- Settles O28, from what the engine reset leaves in every byte. -/
theorem engineResetRestoresRegistersAndWatchdogs : Obligations.EngineResetRestoresRegistersAndWatchdogs :=
  fun _ s => ⟨_, rfl, resetRegisters_engineReset s, sameInspection_engineReset s, load_engineReset s⟩

/-- Settles O29: the engine reset comes after the clears, which change only memory. -/
theorem softResetKeepsTheIoPage : Obligations.SoftResetKeepsTheIoPage :=
  fun _ s => ⟨_, rfl, resetRegisters_engineReset _, sameInspection_engineReset (clearVideo (clearRam s)), load_softReset s⟩

/-- Settles O30: before the glyph every byte is at its fill, and the glyph writes only the brightness plane. -/
theorem hardResetWritesTheGlyphLast : Obligations.HardResetWritesTheGlyphLast :=
  fun p s => ⟨_, rfl, resetRegisters_writeGlyph _ (resetRegisters_engineReset _),
    sameInspection_writeGlyph _ (sameInspection_engineReset (clearVideo (clearRam (clearIo s)))),
    load_writeGlyph_of_fill _ (load_hardResetUnlit s),
    fun _ ha => load_writeGlyph_of_fill_other p.bootGlyph (load_hardResetUnlit s) ha⟩

/-- Settles O27: power-on and a hard reset write the same glyph over states that are equal when memory is canonical. -/
theorem powerOnState : Obligations.PowerOnState := by
  refine ⟨fun g c o i => ?_, fun p s hs => ?_⟩
  · have hlatches : SameInspection (powerOnUnlit c o i) (State.powerOn g c o i) :=
      sameInspection_writeGlyph g ⟨rfl, rfl, rfl⟩
    obtain ⟨hcurop, hop, hic⟩ := hlatches
    exact ⟨resetRegisters_writeGlyph g ⟨rfl, rfl, rfl, rfl, rfl, rfl, rfl, rfl⟩, hcurop, hop, hic,
      load_writeGlyph_of_fill g (load_powerOnUnlit c o i),
      fun _ ha => load_writeGlyph_of_fill_other g (load_powerOnUnlit c o i) ha⟩
  · rw [hardReset_eq_writeGlyph, hardResetUnlit_eq_powerOnUnlit hs, powerOn_eq_writeGlyph]

/-- Settles O33: an image that fits is written from 0x0100 on, and a load that fails leaves the state as it was. -/
theorem loadImageCopiesIntoRam : Obligations.LoadImageCopiesIntoRam := by
  refine ⟨fun p bytes s hfits => ?_, fun p bytes s hlong => ?_, fun p s => ?_⟩
  · exact ⟨_, by rw [transact, loadResult_of_fits hfits], loadImage_eq _ s, load_loadImage_of_fits hfits s⟩
  · exact transact_loadImage_of_failure p ((loadResult_eq_failure_iff _).mpr (.inr ⟨bytes, rfl, hlong⟩)) s
  · exact transact_loadImage_of_failure p rfl s
end
